-- ==== Sys2Proof/Word.lean ====
section
/-! DEFINITION. The fixed-width words of the block: the widths of `00_scope.md` rule R6. -/

namespace Sys2Proof

/-- 8 bits: one entry of the history FIFO, `PEND`, `DUTY` (rules R20, R66). -/
abbrev Byte := BitVec 8

/-- 7 bits: a slot number of the history FIFO, 0 to 127 (rules R25, R40). -/
abbrev Slot := BitVec 7

/-- 6 bits: the delay offset `D` and the sub-counter `SUB` (rules R26, R27). -/
abbrev Counter := BitVec 6

end Sys2Proof
end

