-- ==== Sys2Proof/Config.lean ====
section
/-! DEFINITION. The constants of `00_scope.md` rule R6, the open parameters of rule R7 as one configuration that is
legal by construction (rule R8), and the values the spec says a model must not fix. -/

namespace Sys2Proof

/-- `CAP`: entries in the history FIFO (rule R6). -/
def Config.cap : Nat := 128

/-- `HALF = CAP / 2`: the offset of the second tap pair (rule R6). -/
def Config.half : Int := 64

/-- `SAT_MAX` (rule R6). -/
def Config.satMax : Int := 127

/-- `SAT_MIN` (rule R6). -/
def Config.satMin : Int := -127

/-- The code of a zero sample and the offset of `bias128` (rule R13). -/
def Config.midScale : Int := 128

/-- The legal ranges of rule R7. -/
abbrev Config.Legal (rawW accW leakShift chorusPeriod : Nat) : Prop :=
  (2 ≤ rawW ∧ rawW ≤ 15) ∧ (rawW + 1 ≤ accW ∧ accW ≤ 32) ∧ leakShift ≤ accW - 1 ∧
    (1 ≤ chorusPeriod ∧ chorusPeriod ≤ 64)

/-- The open parameters of one instance (rule R7). A configuration outside the legal ranges cannot be built
(rule R8: "the model gives it no meaning and builds no machine for it"). No rule reads `COMMIT_PHASE`, and
`93_implementation_defined.md` section 1 says a model need not carry it. -/
structure Config where
  /-- `RAW_W`: bits of the raw sample. -/
  rawW : Nat
  /-- `ACC_W`: bits of the filter accumulator `Y`. -/
  accW : Nat
  /-- `LEAK_SHIFT`, written `K`. -/
  leakShift : Nat
  /-- `CHORUS_PERIOD`, written `P`. -/
  chorusPeriod : Nat
  /-- The ranges of rule R7 hold. -/
  legal : Config.Legal rawW accW leakShift chorusPeriod
deriving DecidableEq, Repr

/-- The reference values of rule R7. -/
def Config.reference : Config := ⟨8, 16, 4, 64, by decide⟩

/-- `EVW`, the event word: `RAW_W + 3` bits, the three control bits directly above the `raw` field
(`30_encoding.md` rules R60, R61). -/
abbrev EventWord (cfg : Config) := BitVec (3 + cfg.rawW)

/-- Free value (log 7): what the modulator's latch `MOD_ACT` holds at reset. `10_state.md` rule R34: "Their reset
values are not in the source and are left unspecified: a model that holds them draws them freely". -/
opaque Config.modActAtReset : Byte

/-- Free value (log 7): what `MOD_ACT` holds after a modulator boundary in step `n`, before the first COMMIT.
`93_implementation_defined.md` section 3 lists `MOD_ACT` "at reset and until the first boundary after the first COMMIT"
among the values a model must not fix. -/
opaque Config.latchBeforeCommit : Nat → Byte

/-- Free value (log 7): what `MOD_ACT` holds after a modulator boundary that coincides with a write of `DUTY` in step
`n`. `93_implementation_defined.md` section 2: "a model of the modulator must treat a coincidence as unspecified
(either old or new value, or neither)". -/
opaque Config.coincidentDuty : Nat → Byte

end Sys2Proof
end

