-- ==== Sys2Proof/Machine/Operands.lean ====
section
/-! DEFINITION. The primitive functions of `00_scope.md` rules R9 to R13, on exact integers, the event word's fields
(`30_encoding.md` rules R60, R62) and the two addressing modes of `40_history_fifo.md` rule R82. -/

namespace Sys2Proof.Machine

/-- `sext_N(v)`: the integer a field denotes in two's complement (rule R9). -/
def sext {n : Nat} (v : BitVec n) : Int := v.toInt

/-- `zext_N(v)`: the integer a field denotes without sign (rule R9). -/
def zext {n : Nat} (v : BitVec n) : Int := v.toNat

/-- The N-bit field `i mod 2^N` of a register that holds the integer `i` (rule R9). -/
def field (n : Nat) (i : Int) : BitVec n := BitVec.ofInt n i

/-- `wrap_N(i)`: the integer of the signed N-bit range congruent to `i` modulo `2^N` (rule R9). -/
def wrap (n : Nat) (i : Int) : Int := sext (field n i)

/-- `asr(i, k) = floor(i / 2^k)` (rule R10). Division of integers by a positive divisor is the floor here. -/
def asr (i : Int) (k : Nat) : Int := i / 2 ^ k

/-- `sat127(i)`: clip to [-127, 127] (rule R11). -/
def sat127 (i : Int) : Int :=
  if i > Config.satMax then Config.satMax else if i < Config.satMin then Config.satMin else i

/-- `mod128(i) = i - 128 * floor(i / 128)`, an integer 0 to 127 (rule R12). -/
def mod128 (i : Int) : Int := i - (Config.cap : Int) * (i / (Config.cap : Int))

/-- `bias128(c) = c + 128` (rule R13). -/
def bias128 (c : Int) : Int := c + Config.midScale

/-- Addressing mode (b) of rule R82, index plus offset modulo capacity: the slot `mod128(IDX + off)`. -/
def indexPlus (idx : Slot) (off : Int) : Slot := field 7 (mod128 (zext idx + off))

/-- Bit `rst` of the event word (rule R60). -/
def rstBit {cfg : Config} (w : EventWord cfg) : Bool := w.getLsbD (cfg.rawW + 2)

/-- Bit `c` of the event word (rule R60). -/
def commitBit {cfg : Config} (w : EventWord cfg) : Bool := w.getLsbD (cfg.rawW + 1)

/-- Bit `s` of the event word (rule R60). -/
def sampleBit {cfg : Config} (w : EventWord cfg) : Bool := w.getLsbD cfg.rawW

/-- Field `raw` of the event word (rule R60). -/
def rawField {cfg : Config} (w : EventWord cfg) : BitVec cfg.rawW := w.setWidth cfg.rawW

end Sys2Proof.Machine
end

