-- ==== Sys2Proof/Machine/State.lean ====
section
/-! DEFINITION. The state: every register of `10_state.md` rule R20, the ports of `30_encoding.md` rule R65, the
monitor of rule R35, the modulator's latch of rule R34, and the model's own fields (INVENTORY.md, heading State). -/

namespace Sys2Proof.Machine

/-- The contract monitor `PH` (rule R35): which event the ordering contract expects next. -/
inductive Phase where
  | waitSample
  | waitCommit
deriving DecidableEq, Repr

/-- The two causes of `F_ORDER` (`60_exceptions.md` rule R141). -/
inductive OrderCause where
  | sampleAfterSample
  | commitWithoutSample
deriving DecidableEq, Repr

/-- One `F_ORDER` record of the set `FAULT`: the step number and the cause (rule R141). -/
structure FaultRecord where
  step : Nat
  cause : OrderCause
deriving DecidableEq, Repr

/-- What a step makes visible (`43_sample_cycle.md` rule R122). -/
inductive Output where
  | adcStart
  | dutyWrite (value : Byte)
deriving DecidableEq, Repr

/-- The inputs of one step: the number whose bits the input ports carry (log 2), and whether one of the modulator's own
period boundaries falls in this step (`60_exceptions.md` rule R152, log 7). -/
structure Input where
  word : Nat
  boundary : Bool
deriving DecidableEq, Repr

/-- The history FIFO `BUF` as cells (slot number, entry) in canonical form (rules R24, R40). -/
abbrev Memory := List Host.Cell

/-- What a slot that is not listed reads as: the reset value of every entry (rule R24). -/
def Memory.resetByte : Byte := 0

/-- The canonical form: slot numbers 0 to 127, strictly rising, no entry equal to what an unlisted slot reads as. -/
abbrev Memory.wf (m : Memory) : Prop :=
  m.Pairwise (fun p q => p.1 < q.1) ∧ ∀ c ∈ m, c.1 < Config.cap ∧ c.2 ≠ Memory.resetByte

/-- The temporaries of one SAMPLE, integers as the pseudocode of the rules has them (log 5). They do not outlive the
SAMPLE that forms them (rule R33). -/
structure Temps where
  /-- `raw`, the raw operand (rule R116). -/
  raw : Int
  /-- `t`, which DCB.ACC wraps to `ACC_W` bits (rule R91). -/
  t : Int
  /-- `v`, the Sample handed to FIFO.PUSH (rule R93). -/
  v : Int
  /-- `aA` (rule R100). -/
  addrA : Slot
  /-- `aB` (rule R101). -/
  addrB : Slot
  /-- `aC` (rule R102). -/
  addrC : Slot
  /-- `aD` (rule R103). -/
  addrD : Slot
  /-- `tapA` (rules R81, R104). -/
  tapA : Int
  /-- `tapB` (rules R81, R104). -/
  tapB : Int
  /-- `tapC` (rules R81, R104). -/
  tapC : Int
  /-- `tapD` (rules R81, R104). -/
  tapD : Int
  /-- `s`, the exact integer sum (rule R104). -/
  s : Int
  /-- `c`, the chorus output sample (rule R105). -/
  c : Int
  /-- `u`, the unsigned output code (rule R125). -/
  u : Int
deriving DecidableEq, Repr

/-- No SAMPLE is running: the temporaries hold nothing (log 5). -/
def Temps.clear : Temps := ⟨0, 0, 0, 0, 0, 0, 0, 0, 0, 0, 0, 0, 0, 0⟩

/-- The machine. No field but `cfg` bounds another; every bit pattern of every register is a state. -/
structure State where
  /-- The instance's parameters (rule R7): fixed when the model is built (rule R32, log 1). -/
  cfg : Config
  /-- `X_CUR` (rule R21). -/
  xCur : BitVec cfg.rawW
  /-- `X_PREV` (rule R22). -/
  xPrev : BitVec cfg.rawW
  /-- `Y` (rule R23). -/
  y : BitVec cfg.accW
  /-- `BUF[0..127]` (rule R24). -/
  buf : Memory
  /-- `IDX` (rule R25). -/
  idx : Slot
  /-- `D` (rule R26). -/
  d : Counter
  /-- `SUB` (rule R27). -/
  sub : Counter
  /-- `PEND` (rule R28). -/
  pend : Byte
  /-- `DUTY` (rule R29); the port `duty` shows it at all times (rule R128). -/
  duty : Byte
  /-- `MOD_ACT`, the modulator's latch (rule R34). -/
  modAct : Byte
  /-- A COMMIT step has been taken since the last RESET step: from the next boundary on `MOD_ACT` is not open any more
  (`93_implementation_defined.md` section 3, log 7). No operation reads it. -/
  committed : Bool
  /-- The level of port `adc_start` in the last step (rule R65). -/
  adcStart : Bool
  /-- `PH`, the contract monitor (rule R35). -/
  ph : Phase
  /-- `FAULT`: the `F_ORDER` records, oldest first (rules R35, R140). -/
  faults : List FaultRecord
  /-- The outputs of the run so far, oldest first (rules R122, R157). -/
  trace : List Output
  /-- How many event words the run has applied (rule R141, log 4). -/
  stepNo : Nat
  /-- The inputs not yet applied, the next one first (rules R69, R157, log 2). -/
  stim : List Input
  /-- The temporaries of the running SAMPLE (log 5). -/
  tmp : Temps
deriving DecidableEq, Repr

/-- Why the machine stops. -/
inductive Fault where
  /-- `F_SIMUL` (code 1, rules R141, R142): raised by the reserved pattern `rst = 0, c = 1, s = 1`, with the step number.
  The spec defines no next state. Safe: the model stops where the source says "fatal/undefined". -/
  | simul (step : Nat)
deriving DecidableEq, Repr

/-- Why the model gives no meaning. -/
inductive Refusal where
  /-- Raised by `exec` for an operation that has no meaning yet. Safe: nothing follows from it. -/
  | notModelled (mnemonic : String)
  /-- Raised by `powerOn` for parameters outside the ranges of rule R7 (rules R8, R144). Safe: no machine is built. -/
  | illegalConfig
  /-- Raised by SAMPLE and ADC.TRIG for an operand that does not fit `RAW_W` bits signed (rule R144). Safe: no event
  word spells such an operand. -/
  | operandRange
deriving DecidableEq, Repr

/-- The reset state of an instance (`70_reset_and_hazards.md` rule R161), with nothing presented yet. -/
def State.resetOf (cfg : Config) : State where
  cfg := cfg
  xCur := 0
  xPrev := 0
  y := 0
  buf := []
  idx := 0
  d := 0
  sub := 0
  pend := 0x80
  duty := 0x80
  modAct := Config.modActAtReset
  committed := false
  adcStart := false
  ph := .waitSample
  faults := []
  trace := []
  stepNo := 0
  stim := []
  tmp := Temps.clear

/-- The machine right after reset, at the reference configuration (rules R7, R161; log 1). -/
def State.reset : State := State.resetOf Config.reference

end Sys2Proof.Machine
end

