-- ==== Sys2Proof/Machine/Ops.lean ====
section
/-! DEFINITION. The named operations over the history FIFO, the ports, the fault set and the registers that the
meanings share. There is no exception entry and no return from one (`60_exceptions.md` rules R148, R149): raising a
fault record (rule R140) is the only thing in their place. -/

namespace Sys2Proof.Machine

/-- The entry of slot `a`: the first cell listed for it, or the reset value (rule R24). -/
def Memory.read : Memory → Nat → Byte
  | [], _ => Memory.resetByte
  | c :: m, a => if c.1 = a then c.2 else Memory.read m a

/-- The cells with one more, before the first whose slot number is greater. -/
def Memory.insert (a : Nat) (v : Byte) : Memory → Memory
  | [] => [(a, v)]
  | c :: m => if a < c.1 then (a, v) :: c :: m else c :: Memory.insert a v m

/-- The cells after slot `a` is set to `v`: the old cell of `a` goes, and a new one comes in its place in the order
unless `v` is what an unlisted slot reads as. -/
def Memory.write (m : Memory) (a : Nat) (v : Byte) : Memory :=
  if v = Memory.resetByte then m.filter (fun c => c.1 ≠ a) else Memory.insert a v (m.filter (fun c => c.1 ≠ a))

/-- The integer `X_CUR` holds (rules R21, R66). -/
def readXCur (s : State) : Int := sext s.xCur

/-- The integer `X_PREV` holds (rules R22, R66). -/
def readXPrev (s : State) : Int := sext s.xPrev

/-- The integer `Y` holds (rules R23, R66). -/
def readY (s : State) : Int := sext s.y

/-- The 8-bit field held in slot `a` of `BUF`. -/
def slotByte (s : State) (a : Slot) : Byte := s.buf.read a.toNat

/-- `MemRead(a, 1)`: the integer slot `a` holds (rule R42). -/
def memRead (s : State) (a : Slot) : Int := sext (slotByte s a)

/-- `MemWrite(a, 1, v)`: `BUF[a]` becomes the 8-bit field of `v`, nothing else changes (rule R43). -/
def memWrite (s : State) (a : Slot) (v : Int) : State := { s with buf := s.buf.write a.toNat (field 8 v) }

/-- `emit`: one output, after those so far (rule R122). -/
def emit (o : Output) (s : State) : State := { s with trace := s.trace ++ [o] }

/-- The level of port `adc_start` in this step (rule R65). -/
def driveAdcStart (level : Bool) (s : State) : State := { s with adcStart := level }

/-- `if broken then raise F_ORDER(cause)`: a record with the number of this step joins `FAULT` (rules R140, R141). -/
def raiseOrderIf (broken : Bool) (cause : OrderCause) (s : State) : State :=
  { s with faults := if broken then s.faults ++ [⟨s.stepNo, cause⟩] else s.faults }

/-- The temporaries of the running SAMPLE become `m` (log 5). -/
def setTmp (m : Temps) (s : State) : State := { s with tmp := m }

/-- Every register and every entry takes its reset value (rule R160). -/
def resetRegisters (s : State) : State :=
  { s with xCur := 0, xPrev := 0, y := 0, buf := [], idx := 0, d := 0, sub := 0, pend := 0x80, duty := 0x80 }

/-- The SAMPLE is over: its temporaries are gone (rule R33, log 5). -/
def dropTemps (s : State) : State := setTmp Temps.clear s

/-- A machine for these parameters in its reset state; parameters outside the ranges of rule R7 are refused
(rules R8, R144). -/
def powerOn (rawW accW leakShift chorusPeriod : Nat) : Host.Outcome State Fault Refusal :=
  if h : Config.Legal rawW accW leakShift chorusPeriod then
    .next (State.resetOf ⟨rawW, accW, leakShift, chorusPeriod, h⟩)
  else .refused .illegalConfig

end Sys2Proof.Machine
end

