-- ==== Sys2Proof/Machine/Chorus.lean ====
section
/-! DEFINITION. The multi-tap chorus delay engine: CHO.ADDR, CHO.SUM, CHO.SAT, LFO.STEP (`42_chorus.md` rules R100 to
R106). -/

namespace Sys2Proof.Machine

/-- CHO.ADDR tap A: `aA <- mod128(IDX + D)` (rule R100). -/
def choAddrA (s : State) : State := setTmp { s.tmp with addrA := indexPlus s.idx (zext s.d) } s

/-- CHO.ADDR tap B: `aB <- mod128(IDX - D + 1)` (rule R101). -/
def choAddrB (s : State) : State := setTmp { s.tmp with addrB := indexPlus s.idx (-zext s.d + 1) } s

/-- CHO.ADDR tap C: `aC <- mod128(IDX + D + 64)` (rule R102). -/
def choAddrC (s : State) : State := setTmp { s.tmp with addrC := indexPlus s.idx (zext s.d + Config.half) } s

/-- CHO.ADDR tap D: `aD <- mod128(IDX - D + 1 + 64)` (rule R103). -/
def choAddrD (s : State) : State := setTmp { s.tmp with addrD := indexPlus s.idx (-zext s.d + 1 + Config.half) } s

/-- CHO.SUM: the exact integer sum of the four taps, each of weight 1 (rule R104). -/
def choSum (s : State) : State :=
  setTmp { s.tmp with s := s.tmp.tapA + s.tmp.tapB + s.tmp.tapC + s.tmp.tapD } s

/-- CHO.SAT: `c <- sat127(s)` (rule R105). -/
def choSat (s : State) : State := setTmp { s.tmp with c := sat127 s.tmp.s } s

/-- The next `SUB` and `D` (rule R106): the sub-counter wraps at `P` and steps the delay offset modulo `P`. -/
def lfoNext (period : Nat) (sub d : Counter) : Counter × Counter :=
  if sub.toNat + 1 ≥ period then (0, BitVec.ofNat 6 ((d.toNat + 1) % period))
  else (BitVec.ofNat 6 (sub.toNat + 1), d)

/-- LFO.STEP (rule R106). -/
def lfoStep (s : State) : State :=
  { s with sub := (lfoNext s.cfg.chorusPeriod s.sub s.d).1, d := (lfoNext s.cfg.chorusPeriod s.sub s.d).2 }

/-- The meaning of CHO.ADDR.A (rule R100). -/
def execChoAddrA (s : State) : Host.Outcome State Fault Refusal := .next (choAddrA s)

/-- The meaning of CHO.ADDR.B (rule R101). -/
def execChoAddrB (s : State) : Host.Outcome State Fault Refusal := .next (choAddrB s)

/-- The meaning of CHO.ADDR.C (rule R102). -/
def execChoAddrC (s : State) : Host.Outcome State Fault Refusal := .next (choAddrC s)

/-- The meaning of CHO.ADDR.D (rule R103). -/
def execChoAddrD (s : State) : Host.Outcome State Fault Refusal := .next (choAddrD s)

/-- The meaning of CHO.SUM (rule R104). -/
def execChoSum (s : State) : Host.Outcome State Fault Refusal := .next (choSum s)

/-- The meaning of CHO.SAT (rule R105). -/
def execChoSat (s : State) : Host.Outcome State Fault Refusal := .next (choSat s)

/-- The meaning of LFO.STEP (rule R106). -/
def execLfoStep (s : State) : Host.Outcome State Fault Refusal := .next (lfoStep s)

end Sys2Proof.Machine
end

