-- ==== Sys2Proof/Syntax.lean ====
section
/-! DEFINITION. The operations: one constructor for each row of `spec/opcode_table.json`. -/

namespace Sys2Proof

/-- The four taps of the chorus delay engine (`42_chorus.md` rules R100 to R103). -/
inductive Tap where
  | A | B | C | D
deriving DecidableEq, Repr

/-- The operations of the block. The first five are selected by an event word (`30_encoding.md` rule R61); the others
are micro-operations, which have no encoding of their own (rule R68) and run inside SAMPLE or COMMIT. -/
inductive Instr where
  /-- RESET (rule R160). -/
  | reset
  /-- IDLE (rule R121). -/
  | idle
  /-- SAMPLE with its operand, an integer (rules R62, R115). -/
  | sample (raw : Int)
  /-- COMMIT (rule R127). -/
  | commit
  /-- The reserved pattern: both events in one step (rule R64). -/
  | both
  /-- ADC.TRIG with the value `adc_data` shows (rule R116). -/
  | adcTrig (raw : Int)
  /-- DCB.SHIFT (rule R90). -/
  | dcbShift
  /-- DCB.ACC (rule R91). -/
  | dcbAcc
  /-- DCB.LEAK (rule R92). -/
  | dcbLeak
  /-- DCB.NARROW (rule R93). -/
  | dcbNarrow
  /-- FIFO.PUSH (rule R80). -/
  | fifoPush
  /-- CHO.ADDR, tap A (rule R100). -/
  | choAddrA
  /-- CHO.ADDR, tap B (rule R101). -/
  | choAddrB
  /-- CHO.ADDR, tap C (rule R102). -/
  | choAddrC
  /-- CHO.ADDR, tap D (rule R103). -/
  | choAddrD
  /-- FIFO.TAP, one of the four reads (rule R81). -/
  | fifoTap (tap : Tap)
  /-- CHO.SUM (rule R104). -/
  | choSum
  /-- CHO.SAT (rule R105). -/
  | choSat
  /-- OUT.BIAS (rule R125). -/
  | outBias
  /-- OUT.PEND (rule R126). -/
  | outPend
  /-- LFO.STEP (rule R106). -/
  | lfoStep
  /-- FIFO.ADV (rule R83). -/
  | fifoAdv
  /-- OUT.COMMIT (rule R127). -/
  | outCommit
deriving DecidableEq, Repr

end Sys2Proof
end

