-- ==== Sys2Proof/Machine/Fifo.lean ====
section
/-! DEFINITION. The circular sample history FIFO: FIFO.PUSH, FIFO.TAP, FIFO.ADV (`40_history_fifo.md` rules R80 to R83). -/

namespace Sys2Proof.Machine

/-- The address CHO.ADDR formed for a tap. -/
def tapAddress (s : State) : Tap → Slot
  | .A => s.tmp.addrA
  | .B => s.tmp.addrB
  | .C => s.tmp.addrC
  | .D => s.tmp.addrD

/-- The temporaries with the value a tap returned. -/
def withTap (x : Tap) (v : Int) (m : Temps) : Temps :=
  match x with
  | .A => { m with tapA := v }
  | .B => { m with tapB := v }
  | .C => { m with tapC := v }
  | .D => { m with tapD := v }

/-- FIFO.PUSH: `MemWrite(IDX, 1, v)`; `IDX` is not changed (rule R80). -/
def fifoPush (s : State) : State := memWrite s s.idx s.tmp.v

/-- FIFO.TAP: `tap <- MemRead(a, 1)` for one of the four taps; nothing is consumed (rule R81). -/
def fifoTap (x : Tap) (s : State) : State := setTmp (withTap x (memRead s (tapAddress s x)) s.tmp) s

/-- FIFO.ADV: `IDX <- mod128(IDX + 1)` (rule R83). -/
def fifoAdv (s : State) : State := { s with idx := field 7 (mod128 (zext s.idx + 1)) }

/-- The meaning of FIFO.PUSH (rule R80). -/
def execFifoPush (s : State) : Host.Outcome State Fault Refusal := .next (fifoPush s)

/-- The meaning of FIFO.TAP (rule R81). -/
def execFifoTap (tap : Tap) (s : State) : Host.Outcome State Fault Refusal := .next (fifoTap tap s)

/-- The meaning of FIFO.ADV (rule R83). -/
def execFifoAdv (s : State) : Host.Outcome State Fault Refusal := .next (fifoAdv s)

end Sys2Proof.Machine
end

