-- ==== Sys2Proof/Machine/Filter.lean ====
section
/-! DEFINITION. The DC-blocking filter: DCB.SHIFT, DCB.ACC, DCB.LEAK, DCB.NARROW (`41_dc_filter.md` rules R90 to R94). -/

namespace Sys2Proof.Machine

/-- DCB.SHIFT: `X_PREV` takes the old `X_CUR` and `X_CUR` the raw operand, together (rule R90). -/
def dcbShift (s : State) : State :=
  { s with xPrev := s.xCur, xCur := field s.cfg.rawW s.tmp.raw }

/-- DCB.ACC: `t <- wrap_ACC_W(Y + (X_CUR - X_PREV))`, the difference exact (rule R91). -/
def dcbAcc (s : State) : State :=
  setTmp { s.tmp with t := wrap s.cfg.accW (readY s + (readXCur s - readXPrev s)) } s

/-- DCB.LEAK: `Y <- wrap_ACC_W(t - asr(t, K))` (rule R92). -/
def dcbLeak (s : State) : State :=
  { s with y := field s.cfg.accW (s.tmp.t - asr s.tmp.t s.cfg.leakShift) }

/-- DCB.NARROW: `v <- sat127(Y)`, `Y` itself not changed (rule R93). -/
def dcbNarrow (s : State) : State := setTmp { s.tmp with v := sat127 (readY s) } s

/-- The meaning of DCB.SHIFT (rule R90). -/
def execDcbShift (s : State) : Host.Outcome State Fault Refusal := .next (dcbShift s)

/-- The meaning of DCB.ACC (rule R91). -/
def execDcbAcc (s : State) : Host.Outcome State Fault Refusal := .next (dcbAcc s)

/-- The meaning of DCB.LEAK (rule R92). -/
def execDcbLeak (s : State) : Host.Outcome State Fault Refusal := .next (dcbLeak s)

/-- The meaning of DCB.NARROW (rule R93). -/
def execDcbNarrow (s : State) : Host.Outcome State Fault Refusal := .next (dcbNarrow s)

end Sys2Proof.Machine
end

