-- ==== Sys2Proof/Machine/Flags.lean ====
section
/-! DEFINITION. The block has no flags and no condition codes (`10_state.md` rule R31): no operation computes one. What
stands beside the registers is the contract monitor `PH`, not hardware, with its rows of `60_exceptions.md` rule R143. -/

namespace Sys2Proof.Machine

/-- `PH` becomes `p`. -/
def setPhase (p : Phase) (s : State) : State := { s with ph := p }

/-- The monitor's rows for the sample event (rule R143): in `WAIT_COMMIT` a COMMIT was missed. -/
def monitorSample (s : State) : State :=
  setPhase .waitCommit (raiseOrderIf (s.ph = .waitCommit) .sampleAfterSample s)

/-- The monitor's rows for the commit event (rule R143): in `WAIT_SAMPLE` a stale or reset value is output again. -/
def monitorCommit (s : State) : State :=
  setPhase .waitSample (raiseOrderIf (s.ph = .waitSample) .commitWithoutSample s)

end Sys2Proof.Machine
end

