-- ==== Sys2Proof/Machine/Output.lean ====
section
/-! DEFINITION. The output stage: OUT.BIAS, OUT.PEND, OUT.COMMIT and the operation COMMIT (`44_output_commit.md` rules
R125 to R128). -/

namespace Sys2Proof.Machine

/-- OUT.BIAS: `u <- bias128(c)` (rule R125). -/
def outBias (s : State) : State := setTmp { s.tmp with u := bias128 s.tmp.c } s

/-- OUT.PEND: `PEND <- u`, one indivisible 8-bit write (rule R126). -/
def outPend (s : State) : State := { s with pend := field 8 s.tmp.u }

/-- OUT.COMMIT: `DUTY <- PEND`, and the output `DutyWrite(PEND)` (rule R127). -/
def outCommit (s : State) : State := emit (.dutyWrite s.pend) { s with duty := s.pend }

/-- Port `duty`: the register `DUTY`, at all times (rules R65, R128). -/
def dutyPort (s : State) : Byte := s.duty

/-- The meaning of OUT.BIAS (rule R125). -/
def execOutBias (s : State) : Host.Outcome State Fault Refusal := .next (outBias s)

/-- The meaning of OUT.PEND (rule R126). -/
def execOutPend (s : State) : Host.Outcome State Fault Refusal := .next (outPend s)

/-- The meaning of OUT.COMMIT, the one micro-operation of COMMIT (rule R127). -/
def execOutCommit (s : State) : Host.Outcome State Fault Refusal := .next (outCommit s)

/-- The meaning of COMMIT (rule R127): its micro-operation, `adc_start` low, then the contract monitor. -/
def execCommit (s : State) : Host.Outcome State Fault Refusal :=
  .next (monitorCommit (outCommit (driveAdcStart false s)))

end Sys2Proof.Machine
end

