-- ==== Sys2Proof/WellFormed.lean ====
section
/-! DEFINITION. Which operations are well formed under a configuration: an operand that is a raw sample fits `RAW_W`
bits signed (`00_scope.md` rule R7, `30_encoding.md` rules R62, R69). -/

namespace Sys2Proof

/-- `raw` is in `-2^(RAW_W-1)` to `2^(RAW_W-1) - 1` (rule R62). -/
abbrev Config.FitsRaw (cfg : Config) (raw : Int) : Prop :=
  -(2 ^ (cfg.rawW - 1)) ≤ raw ∧ raw ≤ 2 ^ (cfg.rawW - 1) - 1

/-- Every operand of the operation is in its range. -/
def Instr.wf (cfg : Config) : Instr → Bool
  | .sample raw => decide (cfg.FitsRaw raw)
  | .adcTrig raw => decide (cfg.FitsRaw raw)
  | .reset => true
  | .idle => true
  | .commit => true
  | .both => true
  | .dcbShift => true
  | .dcbAcc => true
  | .dcbLeak => true
  | .dcbNarrow => true
  | .fifoPush => true
  | .choAddrA => true
  | .choAddrB => true
  | .choAddrC => true
  | .choAddrD => true
  | .fifoTap _ => true
  | .choSum => true
  | .choSat => true
  | .outBias => true
  | .outPend => true
  | .lfoStep => true
  | .fifoAdv => true
  | .outCommit => true

/-- The operation is selected by an event word; the others are micro-operations (rules R61, R68). -/
def Instr.isEvent : Instr → Bool
  | .reset => true
  | .idle => true
  | .sample _ => true
  | .commit => true
  | .both => true
  | .adcTrig _ => false
  | .dcbShift => false
  | .dcbAcc => false
  | .dcbLeak => false
  | .dcbNarrow => false
  | .fifoPush => false
  | .choAddrA => false
  | .choAddrB => false
  | .choAddrC => false
  | .choAddrD => false
  | .fifoTap _ => false
  | .choSum => false
  | .choSat => false
  | .outBias => false
  | .outPend => false
  | .lfoStep => false
  | .fifoAdv => false
  | .outCommit => false

end Sys2Proof
end

