-- ==== Sys2Proof/Machine/Cycle.lean ====
section
/-! DEFINITION. The sampling cycle: ADC.TRIG, SAMPLE as its fourteen micro-operations in order, and IDLE
(`43_sample_cycle.md` rules R115 to R121). -/

namespace Sys2Proof.Machine

/-- ADC.TRIG: `AdcStart` is emitted, `adc_start` is high in this step, and the raw value is taken (rule R116). -/
def adcTrig (raw : Int) (s : State) : State :=
  emit .adcStart (driveAdcStart true (setTmp { s.tmp with raw := raw } s))

/-- Step 2 and the narrowing of step 3 of rule R115: micro-operations 2 to 5, in the order of rule R94. -/
def runFilter (s : State) : State := dcbNarrow (dcbLeak (dcbAcc (dcbShift s)))

/-- Micro-operations 7 and 8: the four addresses, then the four reads (rule R109). -/
def readTaps (s : State) : State :=
  fifoTap .D (fifoTap .C (fifoTap .B (fifoTap .A (choAddrD (choAddrC (choAddrB (choAddrA s)))))))

/-- Micro-operations 9 to 12: sum, clip, bias, and the write of `PEND` (rule R109). -/
def formOutput (s : State) : State := outPend (outBias (choSat (choSum s)))

/-- The fourteen micro-operations of SAMPLE in the order of rule R119. -/
def runSample (raw : Int) (s : State) : State :=
  fifoAdv (lfoStep (formOutput (readTaps (fifoPush (runFilter (adcTrig raw s))))))

/-- The micro-operations of SAMPLE with their numbers, as the table of rule R119 lists them. -/
def sampleTable (raw : Int) : List (Nat × Instr) :=
  [(1, .adcTrig raw), (2, .dcbShift), (3, .dcbAcc), (4, .dcbLeak), (5, .dcbNarrow), (6, .fifoPush),
   (7, .choAddrA), (7, .choAddrB), (7, .choAddrC), (7, .choAddrD),
   (8, .fifoTap .A), (8, .fifoTap .B), (8, .fifoTap .C), (8, .fifoTap .D),
   (9, .choSum), (10, .choSat), (11, .outBias), (12, .outPend), (13, .lfoStep), (14, .fifoAdv)]

/-- The meaning of ADC.TRIG (rule R116); an operand that does not fit `RAW_W` bits is refused (rule R144). -/
def execAdcTrig (raw : Int) (s : State) : Host.Outcome State Fault Refusal :=
  if s.cfg.FitsRaw raw then .next (adcTrig raw s) else .refused .operandRange

/-- The meaning of SAMPLE (rule R115): one transition, then the temporaries are gone and the contract monitor moves;
an operand that does not fit `RAW_W` bits is refused (rule R144). -/
def execSample (raw : Int) (s : State) : Host.Outcome State Fault Refusal :=
  if s.cfg.FitsRaw raw then .next (monitorSample (dropTemps (runSample raw s))) else .refused .operandRange

/-- The meaning of IDLE (rule R121): nothing, with `adc_start` low. -/
def execIdle (s : State) : Host.Outcome State Fault Refusal := .next (driveAdcStart false s)

end Sys2Proof.Machine
end

