-- ==== Sys2Proof/Machine/Reset.lean ====
section
/-! DEFINITION. RESET (`70_reset_and_hazards.md` rule R160) and the reserved pattern (`30_encoding.md` rule R64). -/

namespace Sys2Proof.Machine

/-- The meaning of RESET (rule R160): every register and entry at its reset value, the monitor restarted, `adc_start`
low; `FAULT` is not cleared. -/
def execReset (s : State) : Host.Outcome State Fault Refusal :=
  .next (setPhase .waitSample (driveAdcStart false (resetRegisters s)))

/-- The meaning of the reserved pattern (rules R64, R142): `F_SIMUL` with the step number, and no next state. -/
def execBoth (s : State) : Host.Outcome State Fault Refusal := .fault (.simul s.stepNo)

end Sys2Proof.Machine
end

