-- ==== Sys2Proof/Machine/Dispatch.lean ====
section
/-! DEFINITION. One arm for each row of `spec/opcode_table.json`. -/

namespace Sys2Proof.Machine

def exec (i : Instr) (s : State) : Host.Outcome State Fault Refusal :=
  match i with
  | .reset => Sys2Proof.Machine.execReset s
  | .idle => Sys2Proof.Machine.execIdle s
  | .sample raw => Sys2Proof.Machine.execSample raw s
  | .commit => Sys2Proof.Machine.execCommit s
  | .both => Sys2Proof.Machine.execBoth s
  | .adcTrig raw => Sys2Proof.Machine.execAdcTrig raw s
  | .dcbShift => Sys2Proof.Machine.execDcbShift s
  | .dcbAcc => Sys2Proof.Machine.execDcbAcc s
  | .dcbLeak => Sys2Proof.Machine.execDcbLeak s
  | .dcbNarrow => Sys2Proof.Machine.execDcbNarrow s
  | .fifoPush => Sys2Proof.Machine.execFifoPush s
  | .choAddrA => Sys2Proof.Machine.execChoAddrA s
  | .choAddrB => Sys2Proof.Machine.execChoAddrB s
  | .choAddrC => Sys2Proof.Machine.execChoAddrC s
  | .choAddrD => Sys2Proof.Machine.execChoAddrD s
  | .fifoTap tap => Sys2Proof.Machine.execFifoTap tap s
  | .choSum => Sys2Proof.Machine.execChoSum s
  | .choSat => Sys2Proof.Machine.execChoSat s
  | .outBias => Sys2Proof.Machine.execOutBias s
  | .outPend => Sys2Proof.Machine.execOutPend s
  | .lfoStep => Sys2Proof.Machine.execLfoStep s
  | .fifoAdv => Sys2Proof.Machine.execFifoAdv s
  | .outCommit => Sys2Proof.Machine.execOutCommit s

end Sys2Proof.Machine
end

