-- ==== Sys2Proof/Decode.lean ====
section
/-! DEFINITION. From event words to operations and back (`30_encoding.md` rules R60 to R64). Micro-operations have no
encoding of their own (rule R68): no word decodes to one, and the encoder gives none. -/

namespace Sys2Proof

open Sys2Proof.Machine

/-- Why a number or a list of bytes is no event word. -/
inductive DecodeRefusal where
  /-- It has a bit set above the `RAW_W + 3` bits of an event word (rule R67: every event word has that length). -/
  | widerThanEventWord
deriving DecidableEq, Repr

/-- Decoding (rule R61): chosen by `rst`, `c`, `s` in this order of test, total on every bit pattern. -/
def decode (cfg : Config) (w : EventWord cfg) : Instr :=
  if rstBit w then .reset
  else
    match commitBit w, sampleBit w with
    | false, false => .idle
    | false, true => .sample (sext (rawField w))
    | true, false => .commit
    | true, true => .both

/-- The event word with control bits `{rst, c, s}` and field `raw` (rule R60). -/
def eventWord (cfg : Config) (control : BitVec 3) (raw : BitVec cfg.rawW) : EventWord cfg := control ++ raw

/-- The canonical event word of an operation (rule R63: every ignored bit is 0), none for an operand out of range
(rule R69) and for a micro-operation (rule R68). -/
def encode (cfg : Config) : Instr → Option (EventWord cfg)
  | .reset => some (eventWord cfg 0b100#3 0)
  | .idle => some (eventWord cfg 0b000#3 0)
  | .sample raw => if cfg.FitsRaw raw then some (eventWord cfg 0b001#3 (field cfg.rawW raw)) else none
  | .commit => some (eventWord cfg 0b010#3 0)
  | .both => some (eventWord cfg 0b011#3 0)
  | .adcTrig _ => none
  | .dcbShift => none
  | .dcbAcc => none
  | .dcbLeak => none
  | .dcbNarrow => none
  | .fifoPush => none
  | .choAddrA => none
  | .choAddrB => none
  | .choAddrC => none
  | .choAddrD => none
  | .fifoTap _ => none
  | .choSum => none
  | .choSat => none
  | .outBias => none
  | .outPend => none
  | .lfoStep => none
  | .fifoAdv => none
  | .outCommit => none

/-- The operation of the event word whose bits are the number `w`; a number with a bit above the word is refused. -/
def decodeNumber (cfg : Config) (w : Nat) : Except DecodeRefusal Instr :=
  if w < 2 ^ (3 + cfg.rawW) then .ok (decode cfg (BitVec.ofNat (3 + cfg.rawW) w)) else .error .widerThanEventWord

/-- The number whose bytes are these, the first the least significant. The hardware has no byte order for event words
(rule R44: "their order is the bench's business"); this is the model's (log 11). -/
def numberOfBytes : List Byte → Nat
  | [] => 0
  | b :: bs => b.toNat + 256 * numberOfBytes bs

/-- Decoding of an event word that a test bench stores in bytes: total, refusing by name. -/
def decodeBytes (cfg : Config) (bs : List Byte) : Except DecodeRefusal Instr := decodeNumber cfg (numberOfBytes bs)

/-- The lowest `n` bytes of a number, the least significant first. -/
def bytesOfNumber : Nat → Nat → List Byte
  | 0, _ => []
  | n + 1, w => BitVec.ofNat 8 w :: bytesOfNumber n (w / 256)

/-- The operation the decoder reads, at the reference configuration, from the word whose bits are `w`, given in `nbits`
bits (whole bytes). A micro-operation's row of the table has its parent's pattern (rule R68), so its word decodes to the
parent, SAMPLE or COMMIT. -/
def decodeTableWord (nbits w : Nat) : Option Instr :=
  (decodeBytes Config.reference (bytesOfNumber ((nbits + 7) / 8) w)).toOption

end Sys2Proof
end

