-- ==== Sys2Proof/Machine/Stimulus.lean ====
section
/-! DEFINITION. Where the step takes its event word, what it does after the operation, and the modulator's latch
(`30_encoding.md` rule R60, `60_exceptions.md` rules R152, R157). -/

namespace Sys2Proof.Machine

/-- What one step takes from the stimulus: the operation its event word selects, whether a modulator boundary falls in
the step, and the state without that input. -/
structure Fetched where
  instr : Instr
  boundary : Bool
  state : State

/-- The event word the block samples at its `RAW_W + 3` input ports (rules R60, R65). The ports carry the low bits of the
number presented; there is nothing for higher bits to be carried on. -/
def sampledWord (s : State) (inp : Input) : EventWord s.cfg := BitVec.ofNat (3 + s.cfg.rawW) inp.word

/-- The next event word, decoded; none when the list has ended (rule R157). -/
def fetch (s : State) : Option Fetched :=
  match s.stim with
  | [] => none
  | inp :: rest => some ⟨decode s.cfg (sampledWord s inp), inp.boundary, { s with stim := rest }⟩

/-- The operations that write `DUTY` (rule R129): in their steps a boundary coincides with a duty write. -/
def writesDuty : Instr → Bool
  | .reset => true
  | .commit => true
  | .outCommit => true
  | .idle => false
  | .sample _ => false
  | .both => false
  | .adcTrig _ => false
  | .dcbShift => false
  | .dcbAcc => false
  | .dcbLeak => false
  | .dcbNarrow => false
  | .fifoPush => false
  | .choAddrA => false
  | .choAddrB => false
  | .choAddrC => false
  | .choAddrD => false
  | .fifoTap _ => false
  | .choSum => false
  | .choSat => false
  | .outBias => false
  | .outPend => false
  | .lfoStep => false
  | .fifoAdv => false

/-- The modulator's latch after a step that ran `i`: unchanged without a boundary, `DUTY` at a boundary (rule R152), a
free value at a boundary before the first COMMIT, and another where the boundary coincides with a write of `DUTY`
(`93_implementation_defined.md` sections 2 and 3, log 7). -/
def nextModAct (i : Instr) (boundary : Bool) (s : State) : Byte :=
  match boundary, writesDuty i, s.committed with
  | false, _, _ => s.modAct
  | true, true, _ => Config.coincidentDuty s.stepNo
  | true, false, false => Config.latchBeforeCommit s.stepNo
  | true, false, true => s.duty

/-- Whether a COMMIT has been taken since the last RESET, after a step that ran `i` (log 7). -/
def nextCommitted (i : Instr) (s : State) : Bool :=
  if i = .reset then false else if writesDuty i then true else s.committed

/-- The modulator's latch takes its next value. -/
def latchModulator (i : Instr) (boundary : Bool) (s : State) : State := { s with modAct := nextModAct i boundary s }

/-- The step is noted as a COMMIT or a RESET, if it is one. -/
def noteCommit (i : Instr) (s : State) : State := { s with committed := nextCommitted i s }

/-- The step is counted (rule R141, log 4). -/
def countStep (s : State) : State := { s with stepNo := s.stepNo + 1 }

/-- What the step does after the operation. -/
def finishStep (i : Instr) (boundary : Bool) (s : State) : State := countStep (noteCommit i (latchModulator i boundary s))

/-- The event word with these bits stands first in the stimulus, in the place of the one that stood there, with no
modulator boundary in its step (log 3). -/
def presentWord (s : State) (w : Nat) : State :=
  { s with stim := ⟨w, false⟩ :: s.stim.tail }

end Sys2Proof.Machine
end

