-- ==== Sys2Proof/Machine/Step.lean ====
section
/-! DEFINITION. One step: one event word (`00_scope.md` rule R5, `30_encoding.md` rule R60). -/

namespace Sys2Proof.Machine

/-- One step consumes one event word and runs the operation it selects. When the stimulus has ended the run is over and
its final state stays (rule R157, log 2). -/
def step (s : State) : Host.Outcome State Fault Refusal :=
  match fetch s with
  | none => .next s
  | some f =>
    match exec f.instr f.state with
    | .next t => .next (finishStep f.instr f.boundary t)
    | .fault r => .fault r
    | .refused r => .refused r

/-- The state with the event word of bits `w` (given in `nbits` bits) where `step` takes its next one. -/
def State.withFetchWord (s : State) (nbits w : Nat) : State := presentWord s (w % 2 ^ nbits)

end Sys2Proof.Machine
end

