-- ==== Sys2Proof/Machine/Assembler.lean ====
section
/-! DEFINITION. Stimulus assembly (`30_encoding.md` rules R69, R70): from the text of a stimulus to event words. Points
the spec leaves open are log 12. -/

namespace Sys2Proof.Machine

/-- A number of the assembly text: decimal with an optional leading minus, or hexadecimal (rule R69). -/
inductive AsmNumber where
  | dec (i : Int)
  | hex (n : Nat)
deriving DecidableEq, Repr

/-- The statements of rule R69 and the pseudo-instructions of rule R70. -/
inductive Statement where
  | reset
  | idle
  | sample (raw : AsmNumber)
  | commit
  | both (raw : AsmNumber)
  | period (raw : AsmNumber)
  | run (count raw : AsmNumber)
  | wait (count : AsmNumber)
deriving DecidableEq, Repr

/-- The raw operand of SAMPLE: a decimal in the range of `RAW_W`, or a hexadecimal "taken as the raw bit field". -/
def sampleOperand (cfg : Config) : AsmNumber → Option Int
  | .dec i => if cfg.FitsRaw i then some i else none
  | .hex n => if n < 2 ^ cfg.rawW then some (sext (BitVec.ofNat cfg.rawW n)) else none

/-- The raw field of BOTH: "raw mod 256" at `RAW_W = 8` (rule R69). -/
def bothField (cfg : Config) : AsmNumber → BitVec cfg.rawW
  | .dec i => field cfg.rawW i
  | .hex n => BitVec.ofNat cfg.rawW n

/-- The count of RUN and WAIT, `n >= 0` (rule R70). DESIGN CHOICE (log 12): a hexadecimal count is its plain value; rule
R69 gives a hexadecimal number a meaning only "as the raw bit field". -/
def asmCount : AsmNumber → Option Nat
  | .dec i => if 0 ≤ i then some i.toNat else none
  | .hex n => some n

/-- SAMPLE then COMMIT: one whole sample period (rule R70). -/
def periodWords (cfg : Config) (raw : AsmNumber) : Option (List (EventWord cfg)) := do
  let r ← sampleOperand cfg raw
  let a ← encode cfg (.sample r)
  let b ← encode cfg .commit
  return [a, b]

/-- PERIOD repeated `n` times (rule R70). -/
def runWords (cfg : Config) (raw : AsmNumber) : Nat → Option (List (EventWord cfg))
  | 0 => some []
  | n + 1 => do
    let p ← periodWords cfg raw
    let ps ← runWords cfg raw n
    return p ++ ps

/-- The event words of one statement; none where the assembler refuses the line. -/
def assembleStatement (cfg : Config) : Statement → Option (List (EventWord cfg))
  | .reset => (encode cfg .reset).map (fun w => [w])
  | .idle => (encode cfg .idle).map (fun w => [w])
  | .sample raw => do
    let r ← sampleOperand cfg raw
    let w ← encode cfg (.sample r)
    return [w]
  | .commit => (encode cfg .commit).map (fun w => [w])
  | .both raw => some [eventWord cfg 0b011#3 (bothField cfg raw)]
  | .period raw => periodWords cfg raw
  | .run count raw => (asmCount count).bind (runWords cfg raw)
  | .wait count => do
    let n ← asmCount count
    let w ← encode cfg .idle
    return List.replicate n w

/-- A token, if one has been read, before the tokens after it. -/
def flushToken (cur : List Char) (rest : List (List Char)) : List (List Char) :=
  if cur = [] then rest else cur :: rest

/-- The tokens of a line: blanks separate, a comma is a token, `;` starts a comment to the end of the line. -/
def tokens (cur : List Char) : List Char → List (List Char)
  | [] => flushToken cur []
  | c :: cs =>
    if c = ';' then flushToken cur []
    else if c = ' ' ∨ c = '\t' ∨ c = '\r' then flushToken cur (tokens [] cs)
    else if c = ',' then flushToken cur ([','] :: tokens [] cs)
    else tokens (cur ++ [c]) cs

/-- The value of a digit in a base of at most 16. -/
def digitValue (base : Nat) (c : Char) : Option Nat :=
  let v := if '0' ≤ c ∧ c ≤ '9' then c.toNat - 48
    else if 'a' ≤ c ∧ c ≤ 'f' then c.toNat - 87
    else if 'A' ≤ c ∧ c ≤ 'F' then c.toNat - 55
    else 16
  if v < base then some v else none

/-- The value of digits after those already read. -/
def digitsValue (base acc : Nat) : List Char → Option Nat
  | [] => some acc
  | c :: cs => (digitValue base c).bind (fun v => digitsValue base (base * acc + v) cs)

/-- A number in digits, at least one. -/
def numeral (base : Nat) (cs : List Char) : Option Nat := if cs = [] then none else digitsValue base 0 cs

/-- A number of the text (rule R69). -/
def parseNumber : List Char → Option AsmNumber
  | '0' :: 'x' :: cs => (numeral 16 cs).map .hex
  | '-' :: cs => (numeral 10 cs).map (fun n => .dec (-(n : Int)))
  | cs => (numeral 10 cs).map (fun n => .dec n)

/-- The statement of a line's tokens. -/
def parseStatement : List (List Char) → Option Statement
  | [op] =>
    if op = "RESET".toList then some .reset
    else if op = "IDLE".toList then some .idle
    else if op = "COMMIT".toList then some .commit
    else none
  | [op, a] => do
    let n ← parseNumber a
    if op = "SAMPLE".toList then some (.sample n)
    else if op = "BOTH".toList then some (.both n)
    else if op = "PERIOD".toList then some (.period n)
    else if op = "WAIT".toList then some (.wait n)
    else none
  | [op, a, comma, b] => do
    let n ← parseNumber a
    let raw ← parseNumber b
    if op = "RUN".toList ∧ comma = [','] then some (.run n raw) else none
  | _ => none

/-- The event words of one line; a line without tokens has none. -/
def assembleLine (cfg : Config) (line : List Char) : Option (List (EventWord cfg)) :=
  match tokens [] line with
  | [] => some []
  | ts => (parseStatement ts).bind (assembleStatement cfg)

/-- The lines of a text. -/
def splitLines (cur : List Char) : List Char → List (List Char)
  | [] => [cur]
  | c :: cs => if c = '\n' then cur :: splitLines [] cs else splitLines (cur ++ [c]) cs

/-- The event words of the lines from number `n` on, or the number of the line the assembler refuses. -/
def assembleLines (cfg : Config) (n : Nat) : List (List Char) → Except Nat (List (EventWord cfg))
  | [] => .ok []
  | l :: ls =>
    match assembleLine cfg l, assembleLines cfg (n + 1) ls with
    | none, _ => .error n
    | some _, .error k => .error k
    | some ws, .ok rest => .ok (ws ++ rest)

/-- A program: its event words in order, or the number of the first line refused, counted from 1. -/
def assemble (cfg : Config) (text : String) : Except Nat (List (EventWord cfg)) :=
  assembleLines cfg 1 (splitLines [] text.toList)

/-- The state with these event words presented after those already in the stimulus, with no modulator boundary. -/
def presentWords (s : State) (ws : List (EventWord s.cfg)) : State :=
  { s with stim := s.stim ++ ws.map (fun w => ⟨w.toNat, false⟩) }

end Sys2Proof.Machine
end

