-- ==== Sys2Proof/Safety.lean ====
section
/-! DEFINITION. What counts as a run inside the contract, and what holds of every state that is reachable from reset
(`10_state.md` rule R36), in the terms the statements use. -/

namespace Sys2Proof.Machine

/-- No fault has been recorded (`60_exceptions.md` rule R140: "every claim about the block takes `FAULT` empty"). -/
abbrev State.Clean (s : State) : Prop := s.faults = []

/-- Operations one after another, stopping at the first fault or refusal. -/
def runOps : List Instr → State → Host.Outcome State Fault Refusal
  | [], s => .next s
  | i :: is, s =>
    match exec i s with
    | .next t => runOps is t
    | .fault r => .fault r
    | .refused r => .refused r

/-- Sample periods, the last perhaps without its COMMIT (`30_encoding.md` rule R71). -/
def periodsForm : List Instr → Bool
  | [] => true
  | [.sample _] => true
  | .sample _ :: .commit :: is => periodsForm is
  | _ => false

/-- A program well formed for the ordering contract (rule R71): without its IDLEs it is RESET and then periods. -/
def contractForm (is : List Instr) : Bool :=
  match is.filter (fun i => i ≠ .idle) with
  | .reset :: rest => periodsForm rest
  | _ => false

/-- The operations the event words of the stimulus select, in order. -/
def stimOps (s : State) : List Instr := s.stim.map (fun inp => decode s.cfg (sampledWord s inp))

/-- The values SAMPLE leaves in `PEND`, one for each raw operand, when the SAMPLEs run one after another. -/
def pendings : List Int → State → List Byte
  | [], _ => []
  | r :: rs, s =>
    match exec (.sample r) s with
    | .next t => t.pend :: pendings rs t
    | .fault _ => []
    | .refused _ => []

/-- The bounds of every reachable state (rule R36 items (i) to (iv), rule R97): the bounds of `Z = Y - X_CUR` are the
inductive form of rule R97, from which those of `Y` follow. -/
structure State.Bounds (s : State) : Prop where
  bufWf : s.buf.wf
  entries : ∀ a : Slot, -127 ≤ memRead s a ∧ memRead s a ≤ 127
  zLow : -(2 ^ (s.cfg.rawW - 1) - 1) ≤ readY s - readXCur s
  zHigh : readY s - readXCur s ≤ 2 ^ (s.cfg.rawW - 1)
  dBound : s.d.toNat ≤ s.cfg.chorusPeriod - 1
  subBound : s.sub.toNat ≤ s.cfg.chorusPeriod - 1
  pendCode : s.pend ≠ 0
  dutyCode : s.duty ≠ 0

/-- The raw operand of the most recent SAMPLE, or 0 where there was none. Operands are listed newest first. -/
def lastRaw : List Int → Int
  | [] => 0
  | r :: _ => r

/-- The filter's output after these raw operands from reset, as rule R94 writes it in one function. -/
def filterOut (cfg : Config) : List Int → Int
  | [] => 0
  | r :: rs =>
    let t := wrap cfg.accW (filterOut cfg rs + (r - lastRaw rs))
    wrap cfg.accW (t - asr t cfg.leakShift)

/-- The narrowed filter output of the `j`-th most recent SAMPLE, or 0 where fewer have run (rule R36 item (vii)). -/
def storedSample (cfg : Config) (raws : List Int) (j : Nat) : Int :=
  if j ≤ raws.length then sat127 (filterOut cfg (raws.drop (j - 1))) else 0

/-- The registers and the buffer are those that SAMPLEs with these raw operands, newest first, leave from reset
(rule R36 items (v) to (vii)). -/
structure State.History (raws : List Int) (s : State) : Prop where
  xCur : readXCur s = lastRaw raws
  xPrev : readXPrev s = lastRaw raws.tail
  y : readY s = filterOut s.cfg raws
  idx : zext s.idx = mod128 raws.length
  sub : s.sub.toNat = raws.length % s.cfg.chorusPeriod
  d : s.d.toNat = raws.length / s.cfg.chorusPeriod % s.cfg.chorusPeriod
  buf : ∀ j : Nat, 1 ≤ j → j ≤ 128 → memRead s (indexPlus s.idx (-(j : Int))) = storedSample s.cfg raws j

/-- The monitor's own invariant: fault records carry the numbers of steps already taken, rising, and no temporary
survives a step (rules R33, R141). -/
structure State.MonitorOrder (s : State) : Prop where
  rising : s.faults.Pairwise (fun p q => p.step < q.step)
  past : ∀ f ∈ s.faults, f.step < s.stepNo
  noTemps : s.tmp = Temps.clear

end Sys2Proof.Machine
end

