-- ==== Sys2Proof/Certificates/Slice0/Obligations.lean ====
section
/-! DEFINITION. The statements for the provers. Every one is for all legal configurations (`00_scope.md` rule R7): the
configuration is a field of the state, or a variable of the statement. -/

open Sys2Proof Sys2Proof.Machine

/-! ## Encoding -/

/-- Decoding the event word of a well-formed event operation gives it back, with every operand at every value. -/
def Obligations.DecodeEncodeAgree : Prop :=
  ∀ (cfg : Config) (i : Instr), i.isEvent = true → i.wf cfg = true →
    ∃ w, encode cfg i = some w ∧ decode cfg w = i

/-- Every word decodes to an event operation with its operand in range, whose canonical word decodes alike; the canonical
word of a SAMPLE is the word itself. -/
def Obligations.EncodeDecodeCanonical : Prop :=
  ∀ (cfg : Config) (w : EventWord cfg),
    (decode cfg w).isEvent = true ∧ (decode cfg w).wf cfg = true ∧
    ∃ v, encode cfg (decode cfg w) = some v ∧ decode cfg v = decode cfg w ∧
      (∀ raw, decode cfg w = .sample raw → v = w)

/-- Rule R61: the operation by the control bits above the `raw` field, and rule R62's operand. -/
def Obligations.DecodeTable : Prop :=
  ∀ (cfg : Config) (w : EventWord cfg),
    decode cfg w =
      match w.toNat / 2 ^ cfg.rawW with
      | 0 => .idle
      | 1 => .sample (wrap cfg.rawW (w.toNat % 2 ^ cfg.rawW : Nat))
      | 2 => .commit
      | 3 => .both
      | _ => .reset

/-- Rule R63: which bits are ignored, and the canonical words as numbers. -/
def Obligations.IgnoredBitsAndCanonicalWords : Prop :=
  ∀ cfg : Config,
    (∀ w v : EventWord cfg, rstBit w = true → rstBit v = true → decode cfg w = decode cfg v) ∧
    (∀ w v : EventWord cfg, rstBit w = false → rstBit v = false → commitBit w = commitBit v →
      sampleBit w = sampleBit v → (commitBit w = true ∨ sampleBit w = false) → decode cfg w = decode cfg v) ∧
    (encode cfg .reset).map BitVec.toNat = some (4 * 2 ^ cfg.rawW) ∧
    (encode cfg .idle).map BitVec.toNat = some 0 ∧
    (encode cfg .commit).map BitVec.toNat = some (2 * 2 ^ cfg.rawW) ∧
    ∀ raw : Int, cfg.FitsRaw raw →
      (encode cfg (.sample raw)).map BitVec.toNat = some (2 ^ cfg.rawW + (raw % 2 ^ cfg.rawW).toNat)

/-- No word spells a micro-operation: the encoder gives none and no word decodes to one. -/
def Obligations.MicroOperationsHaveNoWord : Prop :=
  ∀ (cfg : Config) (i : Instr), i.isEvent = false → encode cfg i = none ∧ ∀ w : EventWord cfg, decode cfg w ≠ i

/-- Words written out from rule R61's table at `RAW_W = 8` decode to what they stand for. -/
def Obligations.SpecWordsDecode : Prop :=
  decodeTableWord 16 0x400 = some .reset ∧ decodeTableWord 16 0x7FF = some .reset ∧
  decodeTableWord 16 0x000 = some .idle ∧ decodeTableWord 16 0x0FF = some .idle ∧
  decodeTableWord 16 0x200 = some .commit ∧ decodeTableWord 16 0x2D8 = some .commit ∧
  decodeTableWord 16 0x17F = some (.sample 127) ∧ decodeTableWord 16 0x180 = some (.sample (-128)) ∧
  decodeTableWord 16 0x1D8 = some (.sample (-40)) ∧ decodeTableWord 16 0x300 = some .both

/-- Rule R70: PERIOD is SAMPLE then COMMIT, RUN is PERIOD repeated, WAIT is IDLE repeated. That a hexadecimal count is
its plain value is the model's choice (log 12). -/
def Obligations.PseudoInstructionsExpand : Prop :=
  ∀ (cfg : Config) (raw count : AsmNumber) (r : Int) (n : Nat),
    sampleOperand cfg raw = some r → asmCount count = some n →
    ∃ a b z, encode cfg (.sample r) = some a ∧ encode cfg .commit = some b ∧ encode cfg .idle = some z ∧
      assembleStatement cfg (.sample raw) = some [a] ∧ assembleStatement cfg .commit = some [b] ∧
      assembleStatement cfg .idle = some [z] ∧
      assembleStatement cfg (.period raw) = some [a, b] ∧
      assembleStatement cfg (.run count raw) = some (List.replicate n [a, b]).flatten ∧
      assembleStatement cfg (.wait count) = some (List.replicate n z)

/-- Rule R69's statements: a SAMPLE operand outside `RAW_W` bits is refused, one inside gives the word that decodes to
it, a hexadecimal operand is the bit field, and BOTH gives the reserved pattern. -/
def Obligations.AssemblerSpellsOneWord : Prop :=
  ∀ cfg : Config,
    (∀ raw : Int, ¬ cfg.FitsRaw raw → assembleStatement cfg (.sample (.dec raw)) = none) ∧
    (∀ raw : Int, cfg.FitsRaw raw →
      ∃ w, assembleStatement cfg (.sample (.dec raw)) = some [w] ∧ decode cfg w = .sample raw) ∧
    (∀ n : Nat, n < 2 ^ cfg.rawW →
      ∃ w, assembleStatement cfg (.sample (.hex n)) = some [w] ∧ (rawField w).toNat = n) ∧
    (∀ raw : AsmNumber, ∃ w, assembleStatement cfg (.both raw) = some [w] ∧ decode cfg w = .both)

/-! ## One step -/

/-- A step runs the operation the first event word decodes to, in the state without that input, then counts the step and
latches the modulator; a fault of the operation is the step's own. The counter, the boundary flag, the free
values and the note that a COMMIT has been taken are the model's choices (log 4, log 7). -/
def Obligations.StepRunsDecodedInstruction : Prop :=
  ∀ (s : State) (inp : Input) (rest : List Input), s.stim = inp :: rest →
    (∀ t, exec (decode s.cfg (sampledWord s inp)) { s with stim := rest } = .next t →
      step s = .next { t with
        stepNo := t.stepNo + 1
        modAct :=
          if inp.boundary then
            if writesDuty (decode s.cfg (sampledWord s inp)) then Config.coincidentDuty t.stepNo
            else if t.committed then t.duty else Config.latchBeforeCommit t.stepNo
          else t.modAct
        committed :=
          if decode s.cfg (sampledWord s inp) = .reset then false
          else if decode s.cfg (sampledWord s inp) = .commit then true else t.committed }) ∧
    (∀ r, exec (decode s.cfg (sampledWord s inp)) { s with stim := rest } = .fault r → step s = .fault r)

/-- The model's choice (log 2): when the stimulus has ended, the final state of the run stays. -/
def Obligations.StepAtEndOfStimulus : Prop := ∀ s : State, s.stim = [] → step s = .next s

/-- The modulator's latch changes in a step with a boundary and in no other; once a COMMIT has been taken, away from a
write of `DUTY`, it takes the value on the port. Before the first COMMIT since a RESET nothing is said of a boundary: the
latch is open there (`93_implementation_defined.md` section 3). The boundary flag of an input, and the note of a COMMIT
with how it moves, are the model's, and so is it that a RESET step without a boundary leaves the latch, which rule R161
leaves unspecified in the reset state (log 7). -/
def Obligations.LatchOnlyAtBoundary : Prop :=
  ∀ (s t : State) (inp : Input) (rest : List Input), s.stim = inp :: rest → step s = .next t →
    (inp.boundary = false → t.modAct = s.modAct) ∧
    (inp.boundary = true → s.committed = true →
      (∀ raw, decode s.cfg (sampledWord s inp) = .sample raw → t.modAct = s.duty) ∧
      (decode s.cfg (sampledWord s inp) = .idle → t.modAct = s.duty)) ∧
    (t.committed = true ↔ decode s.cfg (sampledWord s inp) = .commit ∨
      s.committed = true ∧ decode s.cfg (sampledWord s inp) ≠ .reset)

/-! ## The event operations -/

/-- RESET (rule R160) from any state: the reset state of the instance, but for what RESET does not touch; every word with
`rst = 1` is a RESET, and two in a row equal one. That the step counter (log 4), the temporaries (log 5), the modulator's
latch and the note of a COMMIT, which the step moves (log 7), and the output trace (log 10) are not touched is the model's
reading. -/
def Obligations.ResetFromEveryState : Prop :=
  ∀ s : State,
    exec .reset s = .next { State.resetOf s.cfg with
      modAct := s.modAct, committed := s.committed, faults := s.faults, trace := s.trace, stepNo := s.stepNo, stim := s.stim, tmp := s.tmp } ∧
    (∀ a : Slot, memRead (State.resetOf s.cfg) a = 0) ∧
    (State.resetOf s.cfg).duty = 0x80 ∧ (State.resetOf s.cfg).adcStart = false ∧
    (State.resetOf s.cfg).ph = .waitSample ∧
    (∀ w : EventWord s.cfg, rstBit w = true → decode s.cfg w = .reset) ∧
    ∀ t, exec .reset s = .next t → exec .reset t = .next t

/-- IDLE (rule R121): nothing but `adc_start` low. -/
def Obligations.IdleChangesNothing : Prop :=
  ∀ s : State, exec .idle s = .next { s with adcStart := false }

/-- SAMPLE as the one transition of rule R115, in integers: every register, every slot, the outputs, the monitor, and
everything it leaves alone. The modulator's latch and the note of a COMMIT (log 7), the step counter (log 4), the
stimulus (log 2) and the temporaries (log 5) are the model's own fields, and that the temporaries are zero after a SAMPLE
is the model's choice (log 5). -/
def Obligations.SampleIsOneTransition : Prop :=
  ∀ (s : State) (raw : Int), s.cfg.FitsRaw raw →
    ∃ t, exec (.sample raw) s = .next t ∧
      let u := wrap s.cfg.accW (readY s + (raw - readXCur s))
      let y := wrap s.cfg.accW (u - asr u s.cfg.leakShift)
      let rd : Slot → Int := fun a => if a = s.idx then sat127 y else memRead s a
      let sum := rd (indexPlus s.idx (zext s.d)) + rd (indexPlus s.idx (-zext s.d + 1)) +
        rd (indexPlus s.idx (zext s.d + 64)) + rd (indexPlus s.idx (-zext s.d + 65))
      readXPrev t = readXCur s ∧ readXCur t = raw ∧ readY t = y ∧
      (∀ a : Slot, memRead t a = rd a) ∧
      zext t.pend = bias128 (sat127 sum) ∧
      (if s.sub.toNat + 1 ≥ s.cfg.chorusPeriod then
          t.sub.toNat = 0 ∧ t.d.toNat = (s.d.toNat + 1) % s.cfg.chorusPeriod
        else t.sub.toNat = s.sub.toNat + 1 ∧ t.d = s.d) ∧
      zext t.idx = mod128 (zext s.idx + 1) ∧
      t.ph = .waitCommit ∧
      t.faults = s.faults ++ (if s.ph = .waitCommit then [⟨s.stepNo, .sampleAfterSample⟩] else []) ∧
      t.adcStart = true ∧ t.trace = s.trace ++ [.adcStart] ∧
      t.duty = s.duty ∧ t.modAct = s.modAct ∧ t.committed = s.committed ∧ t.stepNo = s.stepNo ∧ t.cfg = s.cfg ∧
      t.stim = s.stim ∧
      t.tmp = Temps.clear

/-- SAMPLE runs the micro-operations of rule R119's table, each once, in the table's order; then its temporaries are gone
(rule R33) and the monitor moves (rule R115). That temporaries are held in the state and are zero when a SAMPLE has ended
is the model's choice (log 5). -/
def Obligations.SampleRunsTheTable : Prop :=
  ∀ (s : State) (raw : Int), s.cfg.FitsRaw raw →
    (sampleTable raw).map Prod.fst = [1, 2, 3, 4, 5, 6, 7, 7, 7, 7, 8, 8, 8, 8, 9, 10, 11, 12, 13, 14] ∧
    ∃ t, runOps ((sampleTable raw).map Prod.snd) s = .next t ∧
      exec (.sample raw) s = .next (monitorSample { t with tmp := Temps.clear })

/-- Rule R144's refusals: an operand or a configuration outside its range, and nothing else. That `exec` refuses the
operand, too, is the model's choice (log 13). -/
def Obligations.OnlyOutOfRangeIsRefused : Prop :=
  (∀ (s : State) (raw : Int), ¬ s.cfg.FitsRaw raw →
    exec (.sample raw) s = .refused .operandRange ∧ exec (.adcTrig raw) s = .refused .operandRange) ∧
  (∀ (i : Instr) (s : State) (r : Refusal), i.wf s.cfg = true → exec i s ≠ .refused r) ∧
  (∀ (s : State) (r : Refusal), step s ≠ .refused r) ∧
  (∀ rawW accW k p : Nat, ¬ Config.Legal rawW accW k p → powerOn rawW accW k p = .refused .illegalConfig) ∧
  (∀ cfg : Config, powerOn cfg.rawW cfg.accW cfg.leakShift cfg.chorusPeriod = .next (State.resetOf cfg))

/-- COMMIT (rule R127). -/
def Obligations.CommitCopiesPending : Prop :=
  ∀ s : State, exec .commit s = .next { s with
    duty := s.pend
    adcStart := false
    trace := s.trace ++ [.dutyWrite s.pend]
    ph := .waitSample
    faults := s.faults ++ (if s.ph = .waitSample then [⟨s.stepNo, .commitWithoutSample⟩] else []) }

/-- Two COMMITs leave the hardware as one does, and the second is recorded as a fault (rule R130). -/
def Obligations.CommitIsIdempotentOnHardware : Prop :=
  ∀ s t u : State, exec .commit s = .next t → exec .commit t = .next u →
    u = { t with
      trace := t.trace ++ [.dutyWrite t.duty]
      faults := t.faults ++ [⟨t.stepNo, .commitWithoutSample⟩] }

/-- Both events in one step: `F_SIMUL` with the step number and no next state, for the operation and for a step whose
event word spells it (rule R142). -/
def Obligations.BothEventsStopTheRun : Prop :=
  (∀ s : State, exec .both s = .fault (.simul s.stepNo)) ∧
  ∀ (s : State) (inp : Input) (rest : List Input), s.stim = inp :: rest →
    rstBit (sampledWord s inp) = false → commitBit (sampledWord s inp) = true → sampleBit (sampledWord s inp) = true →
    step s = .fault (.simul s.stepNo)

/-! ## The micro-operations -/

/-- ADC.TRIG (rule R116): the output, the port, and the raw operand taken; no register changes. -/
def Obligations.AdcTrigTakesOperand : Prop :=
  ∀ (s : State) (raw : Int), s.cfg.FitsRaw raw →
    exec (.adcTrig raw) s =
      .next { s with adcStart := true, trace := s.trace ++ [.adcStart], tmp := { s.tmp with raw := raw } }

/-- DCB.SHIFT (rule R90): `X_PREV` takes the old `X_CUR`, `X_CUR` the operand. -/
def Obligations.DcbShiftMovesReadings : Prop :=
  ∀ s : State, ∃ x : BitVec s.cfg.rawW, exec .dcbShift s = .next { s with xPrev := s.xCur, xCur := x } ∧
    sext x = wrap s.cfg.rawW s.tmp.raw ∧ (s.cfg.FitsRaw s.tmp.raw → sext x = s.tmp.raw)

/-- DCB.ACC (rule R91), the difference exact and within `2^RAW_W - 1`. -/
def Obligations.DcbAccAddsDifference : Prop :=
  ∀ s : State,
    exec .dcbAcc s =
      .next { s with tmp := { s.tmp with t := wrap s.cfg.accW (readY s + (readXCur s - readXPrev s)) } } ∧
    -(2 ^ s.cfg.rawW - 1) ≤ readXCur s - readXPrev s ∧ readXCur s - readXPrev s ≤ 2 ^ s.cfg.rawW - 1

/-- DCB.LEAK (rule R92). -/
def Obligations.DcbLeakSubtractsShift : Prop :=
  ∀ s : State, ∃ y : BitVec s.cfg.accW, exec .dcbLeak s = .next { s with y := y } ∧
    sext y = wrap s.cfg.accW (s.tmp.t - s.tmp.t / 2 ^ s.cfg.leakShift)

/-- DCB.NARROW (rule R93): the Sample is `Y` clipped, and `Y` keeps its value. -/
def Obligations.DcbNarrowClips : Prop :=
  ∀ s : State, exec .dcbNarrow s = .next { s with tmp := { s.tmp with v := max (-127) (min 127 (readY s)) } }

/-- FIFO.PUSH (rule R80): the slot `IDX` takes the Sample, and every other slot and all else stays. -/
def Obligations.FifoPushWritesOneSlot : Prop :=
  ∀ s : State, ∃ b : Memory, exec .fifoPush s = .next { s with buf := b } ∧
    (-127 ≤ s.tmp.v → s.tmp.v ≤ 127 → memRead { s with buf := b } s.idx = s.tmp.v) ∧
    slotByte { s with buf := b } s.idx = BitVec.ofInt 8 s.tmp.v ∧
    ∀ a : Slot, a ≠ s.idx → memRead { s with buf := b } a = memRead s a

/-- FIFO.TAP (rule R81), for each of the four taps: the slot's integer, and no register changes. -/
def Obligations.FifoTapReadsSlot : Prop :=
  ∀ s : State,
    exec (.fifoTap .A) s = .next { s with tmp := { s.tmp with tapA := memRead s s.tmp.addrA } } ∧
    exec (.fifoTap .B) s = .next { s with tmp := { s.tmp with tapB := memRead s s.tmp.addrB } } ∧
    exec (.fifoTap .C) s = .next { s with tmp := { s.tmp with tapC := memRead s s.tmp.addrC } } ∧
    exec (.fifoTap .D) s = .next { s with tmp := { s.tmp with tapD := memRead s s.tmp.addrD } } ∧
    ∀ a : Slot, -128 ≤ memRead s a ∧ memRead s a ≤ 127

/-- FIFO.ADV (rule R83). -/
def Obligations.FifoAdvWrapsIndex : Prop :=
  ∀ s : State, ∃ i : Slot, exec .fifoAdv s = .next { s with idx := i } ∧ zext i = mod128 (zext s.idx + 1) ∧
    i = s.idx + 1 ∧ (s.idx = 127 → i = 0)

/-- The four forms of CHO.ADDR (rules R100 to R103). -/
def Obligations.ChoAddrFormsSlots : Prop :=
  ∀ s : State,
    (∃ a : Slot, zext a = mod128 (zext s.idx + zext s.d) ∧
      exec .choAddrA s = .next { s with tmp := { s.tmp with addrA := a } }) ∧
    (∃ a : Slot, zext a = mod128 (zext s.idx - zext s.d + 1) ∧
      exec .choAddrB s = .next { s with tmp := { s.tmp with addrB := a } }) ∧
    (∃ a : Slot, zext a = mod128 (zext s.idx + zext s.d + 64) ∧
      exec .choAddrC s = .next { s with tmp := { s.tmp with addrC := a } }) ∧
    (∃ a : Slot, zext a = mod128 (zext s.idx - zext s.d + 1 + 64) ∧
      exec .choAddrD s = .next { s with tmp := { s.tmp with addrD := a } })

/-- CHO.SUM (rule R104): exact on every integer, with the range that four entries of the FIFO give, and the range where
no entry is -128, as in every state within the bounds of rule R36. -/
def Obligations.ChoSumIsExact : Prop :=
  (∀ s : State, exec .choSum s = .next { s with tmp := { s.tmp with
    s := s.tmp.tapA + s.tmp.tapB + s.tmp.tapC + s.tmp.tapD } }) ∧
  ∀ (s : State) (a b c d : Slot),
    -512 ≤ memRead s a + memRead s b + memRead s c + memRead s d ∧
    memRead s a + memRead s b + memRead s c + memRead s d ≤ 508 ∧
    ((∀ e : Slot, memRead s e ≠ -128) → -508 ≤ memRead s a + memRead s b + memRead s c + memRead s d)

/-- CHO.SAT (rules R105, R111): the clip to [-127, 127], never the opposite sign. -/
def Obligations.ChoSatClips : Prop :=
  ∀ s : State, exec .choSat s = .next { s with tmp := { s.tmp with c := max (-127) (min 127 s.tmp.s) } } ∧
    (max (-127) (min 127 s.tmp.s)).sign = s.tmp.s.sign

/-- OUT.BIAS (rule R125): add 128; for a clipped sample the code is 1 to 255, and its field is that of the sample with
bit 7 inverted. -/
def Obligations.OutBiasAddsMidScale : Prop :=
  ∀ s : State, exec .outBias s = .next { s with tmp := { s.tmp with u := s.tmp.c + 128 } } ∧
    (-127 ≤ s.tmp.c → s.tmp.c ≤ 127 → 1 ≤ s.tmp.c + 128 ∧ s.tmp.c + 128 ≤ 255 ∧
      BitVec.ofInt 8 (s.tmp.c + 128) = BitVec.ofInt 8 s.tmp.c ^^^ 0x80#8)

/-- OUT.PEND (rule R126). -/
def Obligations.OutPendStoresCode : Prop :=
  ∀ s : State, ∃ p : Byte, exec .outPend s = .next { s with pend := p } ∧ p = BitVec.ofInt 8 s.tmp.u ∧
    (0 ≤ s.tmp.u → s.tmp.u ≤ 255 → zext p = s.tmp.u)

/-- LFO.STEP (rule R106), on every value of the two counters. -/
def Obligations.LfoStepCounts : Prop :=
  ∀ s : State, ∃ d sub : Counter, exec .lfoStep s = .next { s with d := d, sub := sub } ∧
    (s.cfg.chorusPeriod ≤ s.sub.toNat + 1 → sub.toNat = 0 ∧ d.toNat = (s.d.toNat + 1) % s.cfg.chorusPeriod) ∧
    (s.sub.toNat + 1 < s.cfg.chorusPeriod → sub.toNat = s.sub.toNat + 1 ∧ d = s.d)

/-- OUT.COMMIT, the micro-operation of COMMIT (rule R127): `DUTY` and the output, not the monitor. -/
def Obligations.OutCommitWritesDuty : Prop :=
  ∀ s : State, exec .outCommit s = .next { s with duty := s.pend, trace := s.trace ++ [.dutyWrite s.pend] }

/-! ## Rules about the whole machine -/

/-- The primitives meet `00_scope.md` rules R9 to R13. -/
def Obligations.PrimitivesMeetTheirRules : Prop :=
  (∀ (n : Nat) (i : Int), 0 < n →
    -(2 ^ (n - 1)) ≤ wrap n i ∧ wrap n i ≤ 2 ^ (n - 1) - 1 ∧ (2 ^ n : Int) ∣ wrap n i - i) ∧
  (∀ (n : Nat) (i : Int), zext (field n i) = i % 2 ^ n ∧ sext (field n i) = wrap n i) ∧
  (∀ (n : Nat) (v : BitVec n), zext v = v.toNat) ∧
  (∀ (n : Nat) (v : BitVec n), 0 < n →
    sext v = (if v.getLsbD (n - 1) then (v.toNat : Int) - 2 ^ n else v.toNat) ∧ wrap n (sext v) = sext v) ∧
  (∀ (i : Int) (k : Nat), asr i k * 2 ^ k ≤ i ∧ i < (asr i k + 1) * 2 ^ k) ∧
  (∀ i : Int, sat127 i = if i > 127 then 127 else if i < -127 then -127 else i) ∧
  (∀ i : Int, mod128 i = i - 128 * (i / 128) ∧ 0 ≤ mod128 i ∧ mod128 i ≤ 127 ∧ mod128 i = zext (BitVec.ofInt 7 i)) ∧
  (∀ c : Int, bias128 c = c + 128) ∧
  (∀ v : Byte, 0 ≤ bias128 (sext v) ∧ bias128 (sext v) ≤ 255 ∧ bias128 (sext v) = zext (v ^^^ 0x80#8))

/-- Rule R92's sign and size, for a `t` of `ACC_W` bits, as DCB.ACC leaves it: the leaked value lies between `t` and
zero, from above at least `t * (1 - 2^-K)`, from below at least one closer to zero, so the wrap of DCB.LEAK does not
act; at `K = 0` it is 0. -/
def Obligations.LeakMovesTowardZero : Prop :=
  ∀ s t : State, -(2 ^ (s.cfg.accW - 1)) ≤ s.tmp.t → s.tmp.t ≤ 2 ^ (s.cfg.accW - 1) - 1 →
    exec .dcbLeak s = .next t →
    readY t = s.tmp.t - asr s.tmp.t s.cfg.leakShift ∧
    (0 ≤ s.tmp.t → 0 ≤ readY t ∧ readY t ≤ s.tmp.t) ∧
    (0 ≤ s.tmp.t → s.tmp.t * (2 ^ s.cfg.leakShift - 1) ≤ readY t * 2 ^ s.cfg.leakShift) ∧
    (s.tmp.t < 0 → s.tmp.t + 1 ≤ readY t ∧ readY t ≤ 0) ∧
    (s.cfg.leakShift = 0 → readY t = 0)

/-- Rule R96's one period: a SAMPLE of an unchanged input moves an output outside 0 to `2^K - 1` strictly toward that
range and not past its nearer end, and leaves an output inside it. Where a run of such SAMPLEs ends is the statement
`ConstantInputComesToRest`. -/
def Obligations.ConstantInputMovesTowardRest : Prop :=
  ∀ (s t : State), exec (.sample (readXCur s)) s = .next t →
    (2 ^ s.cfg.leakShift ≤ readY s → readY t < readY s ∧ 2 ^ s.cfg.leakShift - 1 ≤ readY t) ∧
    (0 ≤ readY s → readY s ≤ 2 ^ s.cfg.leakShift - 1 → readY t = readY s) ∧
    (readY s < 0 → readY s < readY t ∧ readY t ≤ 0)

/-- Rule R96's runs: SAMPLEs of an unchanged input, with any COMMITs and IDLEs between them, bring an output of `2^K` or
more to `2^K - 1` and a negative output to 0, where they stay, and leave an output between. As many SAMPLEs as the output
is away from zero are enough; at `K = 4`, 51 are, from every output in -225 to 240. -/
def Obligations.ConstantInputComesToRest : Prop :=
  ∀ (s : State) (ops : List Instr) (n : Nat),
    (∀ i ∈ ops, i = .idle ∨ i = .commit ∨ i = .sample (readXCur s)) →
    n = ops.countP (fun i => i ≠ .idle && i ≠ .commit) →
    ((readY s).natAbs ≤ n ∨ s.cfg.leakShift = 4 ∧ -225 ≤ readY s ∧ readY s ≤ 240 ∧ 51 ≤ n) →
    ∃ t, runOps ops s = .next t ∧
      readY t =
        if 2 ^ s.cfg.leakShift ≤ readY s then 2 ^ s.cfg.leakShift - 1
        else if readY s < 0 then 0 else readY s

/-- Rules R95 and R97 on states within the bounds: the integrator form, with no wrap, and the bounds of `t` and `Y`. -/
def Obligations.IntegratorFormWithoutWrap : Prop :=
  ∀ (s t : State) (raw : Int), s.Bounds → exec (.sample raw) s = .next t →
    readY t - readXCur t = (readY s - readXCur s) - asr (readY s - readXCur s + raw) s.cfg.leakShift ∧
    -(2 ^ s.cfg.rawW - 1) ≤ readY s - readXCur s + raw ∧ readY s - readXCur s + raw ≤ 2 ^ s.cfg.rawW - 1 ∧
    -(2 ^ s.cfg.rawW - 1) ≤ readY t ∧ readY t ≤ 2 ^ s.cfg.rawW - 1

/-- SAMPLE does not depend on the prior reading, the pending value, `adc_start` or left-over temporaries: they are not in
the line "State read" of `43_sample_cycle.md` rule R115. That temporaries are held in the state is the model's choice
(log 5). -/
def Obligations.SampleIgnoresDeadState : Prop :=
  ∀ (s : State) (raw : Int) (p : BitVec s.cfg.rawW) (v : Byte) (b : Bool) (m : Temps),
    exec (.sample raw) { s with xPrev := p, pend := v, adcStart := b, tmp := m } = exec (.sample raw) s

/-- Rule R110: the four tap addresses are pairwise distinct, and which of them is the slot just pushed. -/
def Obligations.TapAddressesDistinct : Prop :=
  ∀ s : State, ∃ t, runOps [.choAddrA, .choAddrB, .choAddrC, .choAddrD] s = .next t ∧
    [t.tmp.addrA, t.tmp.addrB, t.tmp.addrC, t.tmp.addrD].Nodup ∧
    (t.tmp.addrA = s.idx ↔ s.d = 0) ∧ (t.tmp.addrB = s.idx ↔ s.d = 1) ∧
    t.tmp.addrC ≠ s.idx ∧ t.tmp.addrD ≠ s.idx

/-- Rule R107: the age of the sample each tap reads. -/
def Obligations.TapAges : Prop :=
  ∀ s : State, ∃ t, runOps [.choAddrA, .choAddrB, .choAddrC, .choAddrD] s = .next t ∧
    mod128 (zext s.idx - zext t.tmp.addrA) = (if s.d = 0 then 0 else 128 - zext s.d) ∧
    mod128 (zext s.idx - zext t.tmp.addrB) = (if s.d = 0 then 127 else zext s.d - 1) ∧
    mod128 (zext s.idx - zext t.tmp.addrC) = 64 - zext s.d ∧
    mod128 (zext s.idx - zext t.tmp.addrD) = 63 + zext s.d

/-- Rule R108: where the sweep stands after any run of SAMPLEs with COMMITs and IDLEs between them, by the number `n` of
its SAMPLEs, and that it returns after exactly `P * P`. -/
def Obligations.SweepAfterSamples : Prop :=
  ∀ (s : State) (ops : List Instr) (n : Nat),
    (∀ i ∈ ops, i = .idle ∨ i = .commit ∨ ∃ raw, i = .sample raw ∧ s.cfg.FitsRaw raw) →
    n = ops.countP (fun i => i ≠ .idle && i ≠ .commit) → s.d = 0 → s.sub = 0 →
    ∃ t, runOps ops s = .next t ∧
      t.sub.toNat = n % s.cfg.chorusPeriod ∧
      t.d.toNat = n / s.cfg.chorusPeriod % s.cfg.chorusPeriod ∧
      (t.d = 0 ∧ t.sub = 0 ↔ s.cfg.chorusPeriod * s.cfg.chorusPeriod ∣ n) ∧
      zext t.idx = mod128 (zext s.idx + n)

/-- Rule R84: the value in the slot last pushed stays through the next 127 SAMPLEs, with any COMMITs and IDLEs. -/
def Obligations.PushedSampleRetained : Prop :=
  ∀ (s t : State) (ops : List Instr),
    (∀ i ∈ ops, i = .idle ∨ i = .commit ∨ ∃ raw, i = .sample raw) →
    ops.countP (fun i => i ≠ .idle && i ≠ .commit) ≤ 127 → runOps ops s = .next t →
    memRead t (indexPlus s.idx (-1)) = memRead s (indexPlus s.idx (-1))

/-- Rule R129: the next value of `DUTY`, for every operation. -/
def Obligations.DutyHasTwoWriters : Prop :=
  ∀ (i : Instr) (s t : State), exec i s = .next t →
    t.duty = (if i = .commit ∨ i = .outCommit then s.pend else if i = .reset then 0x80 else s.duty)

/-- Which operations may change the registers of the sampling cycle: outside SAMPLE and RESET no event operation does
(rule R123), and each micro-operation only its own. That no operation, RESET included, changes the step counter (log 4),
the stimulus (log 2), the note of a COMMIT and the modulator's latch (log 7) is the model's reading: the step moves them,
and the latch takes its value at the modulator's own boundaries "and at no other time" (`60_exceptions.md` rule R152). -/
def Obligations.RegistersHaveTheirWriters : Prop :=
  ∀ (i : Instr) (s t : State), exec i s = .next t →
    ((∀ raw, i ≠ .sample raw) → i ≠ .reset →
      (i ≠ .fifoPush → t.buf = s.buf) ∧ (i ≠ .fifoAdv → t.idx = s.idx) ∧
      (i ≠ .lfoStep → t.d = s.d ∧ t.sub = s.sub) ∧ (i ≠ .outPend → t.pend = s.pend) ∧
      (i ≠ .dcbLeak → readY t = readY s) ∧
      (i ≠ .dcbShift → readXCur t = readXCur s ∧ readXPrev t = readXPrev s)) ∧
    t.cfg = s.cfg ∧ t.modAct = s.modAct ∧ t.committed = s.committed ∧ t.stepNo = s.stepNo ∧ t.stim = s.stim

/-- Rule R143's table for the four event operations that go on. -/
def Obligations.MonitorFollowsItsTable : Prop :=
  ∀ (i : Instr) (s t : State), i.isEvent = true → exec i s = .next t →
    (∀ raw, i = .sample raw → t.ph = .waitCommit ∧
      t.faults = s.faults ++ (if s.ph = .waitCommit then [⟨s.stepNo, .sampleAfterSample⟩] else [])) ∧
    (i = .commit → t.ph = .waitSample ∧
      t.faults = s.faults ++ (if s.ph = .waitSample then [⟨s.stepNo, .commitWithoutSample⟩] else [])) ∧
    (i = .idle → t.ph = s.ph ∧ t.faults = s.faults) ∧
    (i = .reset → t.ph = .waitSample ∧ t.faults = s.faults)

/-- `FAULT` is never shrunk, by no operation and no step (rule R140). That the output trace is not shrunk either, not by
RESET, is the model's reading of `60_exceptions.md` rule R157 (log 10). -/
def Obligations.RecordsNeverShrink : Prop :=
  (∀ (i : Instr) (s t : State), exec i s = .next t → s.faults <+: t.faults ∧ s.trace <+: t.trace) ∧
  ∀ s t : State, step s = .next t → s.faults <+: t.faults ∧ s.trace <+: t.trace ∧ t.cfg = s.cfg

/-- `adc_start` is high after a step exactly when its event word is a SAMPLE (rule R116). -/
def Obligations.AdcStartOnlyInSample : Prop :=
  ∀ (s t : State) (inp : Input) (rest : List Input), s.stim = inp :: rest → step s = .next t →
    (t.adcStart = true ↔ ∃ raw, decode s.cfg (sampledWord s inp) = .sample raw)

/-! ## Invariants -/

/-- The reset state of every instance meets the invariants below. The canonical form of the memory (log 14), the step
numbers (log 4) and the temporaries (log 5) in them are the model's own. -/
def Obligations.ResetMeetsInvariants : Prop :=
  ∀ cfg : Config, (State.resetOf cfg).Bounds ∧ (State.resetOf cfg).History [] ∧ (State.resetOf cfg).MonitorOrder ∧
    (State.resetOf cfg).buf.wf

/-- Every step keeps the canonical form of the history FIFO. That form, cells in rising order with no 0 listed, is the
model's own representation of the 128 entries (log 14). -/
def Obligations.StepKeepsMemoryCanonical : Prop :=
  ∀ s t : State, s.buf.wf → step s = .next t → t.buf.wf

/-- Every step keeps the bounds of rule R36 items (i) to (iv), with the bound of rule R97. The bounds
take in the canonical form of the memory, the model's own representation (log 14). -/
def Obligations.StepKeepsBounds : Prop :=
  ∀ s t : State, s.Bounds → step s = .next t →
    t.Bounds ∧ -(2 ^ t.cfg.rawW - 1) ≤ readY t ∧ readY t ≤ 2 ^ t.cfg.rawW - 1

/-- Every step keeps rule R36 items (v) to (vii): the registers and all 128 slots are those that the raw operands since
the last RESET determine. -/
def Obligations.StepKeepsHistory : Prop :=
  ∀ (s t : State) (raws : List Int), s.History raws → step s = .next t → ∃ raws', t.History raws'

/-- The same, with how each operation moves the list of operands: SAMPLE adds its own, RESET empties it, COMMIT and IDLE
leave it. -/
def Obligations.SampleExtendsHistory : Prop :=
  ∀ (s t : State) (raws : List Int), s.History raws →
    (∀ raw, exec (.sample raw) s = .next t → t.History (raw :: raws)) ∧
    (exec .commit s = .next t → t.History raws) ∧ (exec .idle s = .next t → t.History raws) ∧
    (exec .reset s = .next t → t.History [])

/-- Every step keeps the order of the fault records, and no temporary survives a step. That the temporaries are clear
between steps and how steps are numbered are the model's choices (log 4, log 5). -/
def Obligations.StepKeepsMonitorOrder : Prop :=
  ∀ s t : State, s.MonitorOrder → step s = .next t → t.MonitorOrder

/-- A program of rule R71's form runs without a stop and without a fault record, from any state. For the steps after
the last event word this rests on the model's choice that the final state stays (log 2). -/
def Obligations.ContractRunsClean : Prop :=
  ∀ s : State, contractForm (stimOps s) = true →
    ∀ k : Nat, ∃ t, Host.Core.run Sys2Proof.core k s = .next t ∧ t.faults = s.faults

/-- Rule R131: over whole sample periods, with no IDLE between their events, the `k`-th `DutyWrite` is the value the `k`-th SAMPLE left in `PEND`, none
skipped and none repeated. -/
def Obligations.SamePeriodHandoff : Prop :=
  ∀ (s : State) (raws : List Int), s.ph = .waitSample → (∀ r ∈ raws, s.cfg.FitsRaw r) →
    ∃ t, runOps (raws.flatMap (fun r => [.sample r, .commit])) s = .next t ∧
      t.faults = s.faults ∧ (pendings raws s).length = raws.length ∧
      t.trace = s.trace ++ (pendings raws s).flatMap (fun v => [.adcStart, .dutyWrite v]) ∧
      ∀ v, (pendings raws s).getLast? = some v → t.duty = v
end

