-- ==== Sys2Proof/Laws/Arith.lean ====
section
/-! SUPPORT. The primitives of `00_scope.md` rules R9 to R13: ranges and the values they give. -/

namespace Sys2Proof.Machine

@[simp] theorem sext_field (n : Nat) (i : Int) : sext (field n i) = wrap n i := rfl

@[simp] theorem field_sext {n : Nat} (v : BitVec n) : field n (sext v) = v := BitVec.ofInt_toInt

theorem wrap_eq_bmod (n : Nat) (i : Int) : wrap n i = i.bmod (2 ^ n) := BitVec.toInt_ofInt _

theorem wrap_id {n : Nat} {i : Int} (hn : 0 < n) (lo : -(2 ^ (n - 1)) ≤ i) (hi : i < 2 ^ (n - 1)) : wrap n i = i := by
  obtain ⟨m, rfl⟩ := Nat.exists_eq_succ_of_ne_zero hn.ne'
  rw [wrap_eq_bmod]
  simp only [Nat.succ_eq_add_one, Nat.add_sub_cancel] at lo hi
  apply Int.bmod_eq_of_le <;> push_cast <;> rw [pow_succ] <;> omega

@[simp] theorem wrap_sext {n : Nat} (v : BitVec n) : wrap n (sext v) = sext v := by
  rw [← sext_field, field_sext]

theorem sext_lower {n : Nat} (v : BitVec n) : -(2 ^ (n - 1)) ≤ sext v := by
  have := BitVec.le_toInt v
  simpa [sext] using this

theorem sext_upper {n : Nat} (v : BitVec n) : sext v < 2 ^ (n - 1) := by
  have := BitVec.toInt_lt (x := v)
  simpa [sext] using this

theorem sat127_lower (i : Int) : -127 ≤ sat127 i := by
  unfold sat127 Config.satMax Config.satMin; split <;> [skip; split] <;> omega

theorem sat127_upper (i : Int) : sat127 i ≤ 127 := by
  unfold sat127 Config.satMax Config.satMin; split <;> [skip; split] <;> omega

/-- A clipped value fits a Sample's 8 bits. -/
@[simp] theorem wrap_sat127 (i : Int) : wrap 8 (sat127 i) = sat127 i :=
  wrap_id (by decide) (by have := sat127_lower i; norm_num; omega) (by have := sat127_upper i; norm_num; omega)

theorem mod128_eq_emod (i : Int) : mod128 i = i % 128 := by
  unfold mod128 Config.cap; omega

theorem mod128_range (i : Int) : 0 ≤ mod128 i ∧ mod128 i < 128 := by
  rw [mod128_eq_emod]; omega

/-- A slot number holds what `mod128` gives (rule R12: "it equals the low 7 bits"). -/
@[simp] theorem zext_field_mod128 (i : Int) : zext (field 7 (mod128 i)) = mod128 i := by
  have := mod128_range i
  unfold zext field
  rw [BitVec.toNat_ofInt]
  omega

theorem zext_indexPlus (idx : Slot) (off : Int) : zext (indexPlus idx off) = mod128 (zext idx + off) := by
  simp [indexPlus]

theorem zext_range {n : Nat} (v : BitVec n) : 0 ≤ zext v ∧ zext v < 2 ^ n := by
  have := v.isLt
  unfold zext
  refine ⟨by omega, by exact_mod_cast this⟩

theorem zext_injective {n : Nat} {v w : BitVec n} (h : zext v = zext w) : v = w := by
  unfold zext at h
  exact BitVec.eq_of_toNat_eq (by omega)

theorem asr_nonneg {i : Int} (k : Nat) (h : 0 ≤ i) : 0 ≤ asr i k ∧ asr i k ≤ i :=
  ⟨Int.ediv_nonneg h (by positivity), Int.ediv_le_self _ h⟩

theorem asr_neg {i : Int} (k : Nat) (h : i < 0) : i ≤ asr i k ∧ asr i k ≤ -1 := by
  have hp : (0 : Int) < 2 ^ k := by positivity
  unfold asr
  refine ⟨?_, ?_⟩
  · rw [Int.le_ediv_iff_mul_le hp]; nlinarith
  · have : i / 2 ^ k < 0 := Int.ediv_neg_of_neg_of_pos h hp
    omega

end Sys2Proof.Machine
end

