-- ==== Sys2Proof/Laws/Decode.lean ====
section
/-! SUPPORT. The fields of an event word that has been put together from its parts. -/

namespace Sys2Proof

open Sys2Proof.Machine

@[simp] theorem rawField_eventWord (cfg : Config) (control : BitVec 3) (raw : BitVec cfg.rawW) :
    rawField (eventWord cfg control raw) = raw := by
  apply BitVec.eq_of_getLsbD_eq
  intro i hi
  simp [rawField, eventWord, BitVec.getLsbD_append, hi]

@[simp] theorem rstBit_eventWord (cfg : Config) (control : BitVec 3) (raw : BitVec cfg.rawW) :
    rstBit (eventWord cfg control raw) = control.getLsbD 2 := by
  simp [rstBit, eventWord, BitVec.getLsbD_append]

@[simp] theorem commitBit_eventWord (cfg : Config) (control : BitVec 3) (raw : BitVec cfg.rawW) :
    commitBit (eventWord cfg control raw) = control.getLsbD 1 := by
  simp [commitBit, eventWord, BitVec.getLsbD_append]

@[simp] theorem sampleBit_eventWord (cfg : Config) (control : BitVec 3) (raw : BitVec cfg.rawW) :
    sampleBit (eventWord cfg control raw) = control.getLsbD 0 := by
  unfold sampleBit eventWord
  rw [BitVec.getLsbD_append]
  simp

/-- Two words with the same control bits and the same `raw` field decode alike. -/
theorem decode_congr {cfg : Config} {w v : EventWord cfg} (hr : rstBit w = rstBit v) (hc : commitBit w = commitBit v)
    (hs : sampleBit w = sampleBit v) (hraw : rawField w = rawField v) : decode cfg w = decode cfg v := by
  simp only [decode, hr, hc, hs, hraw]

end Sys2Proof
end

