-- ==== Sys2Proof/Laws/Memory.lean ====
section
/-! SUPPORT. Reading after writing, and the canonical form that every operation on the history FIFO keeps. -/

namespace Sys2Proof.Machine

@[simp] theorem read_nil (a : Nat) : Memory.read [] a = Memory.resetByte := rfl

theorem read_filter_same (m : Memory) (a : Nat) :
    Memory.read (m.filter (fun c => c.1 ≠ a)) a = Memory.resetByte := by
  induction m with
  | nil => rfl
  | cons c m ih =>
    by_cases h : c.1 = a
    · simpa [h] using ih
    · simpa [h, Memory.read] using ih

theorem read_filter_other (m : Memory) {a b : Nat} (h : b ≠ a) :
    Memory.read (m.filter (fun c => c.1 ≠ a)) b = Memory.read m b := by
  induction m with
  | nil => rfl
  | cons c m ih =>
    by_cases hc : c.1 = a
    · have hb : c.1 ≠ b := fun e => h (e.symm.trans hc)
      simpa [hc, Memory.read, hb, h.symm] using ih
    · simp only [ne_eq, hc, not_false_eq_true, decide_true, List.filter_cons_of_pos, Memory.read]
      rw [← ih]

theorem read_insert_same (m : Memory) (a : Nat) (v : Byte) (h : ∀ c ∈ m, c.1 ≠ a) :
    Memory.read (Memory.insert a v m) a = v := by
  induction m with
  | nil => simp [Memory.insert, Memory.read]
  | cons c m ih =>
    unfold Memory.insert
    split
    · simp [Memory.read]
    · have hc := h c (by simp)
      simp only [Memory.read, hc, if_false]
      exact ih (fun d hd => h d (by simp [hd]))

theorem read_insert_other (m : Memory) {a b : Nat} (v : Byte) (h : b ≠ a) :
    Memory.read (Memory.insert a v m) b = Memory.read m b := by
  induction m with
  | nil => simp [Memory.insert, Memory.read, h.symm]
  | cons c m ih =>
    unfold Memory.insert
    split
    · simp [Memory.read, h.symm]
    · simp only [Memory.read, ih]

/-- A read after a write of the same slot gives the value written. -/
@[simp] theorem read_write_same (m : Memory) (a : Nat) (v : Byte) : Memory.read (m.write a v) a = v := by
  unfold Memory.write
  split
  · next h => rw [read_filter_same, h]
  · exact read_insert_same _ _ _ (by simp)

/-- A write leaves every other slot alone. -/
theorem read_write_other (m : Memory) {a b : Nat} (v : Byte) (h : b ≠ a) :
    Memory.read (m.write a v) b = Memory.read m b := by
  unfold Memory.write
  split
  · exact read_filter_other m h
  · rw [read_insert_other _ _ h, read_filter_other m h]

theorem mem_insert {m : Memory} {a : Nat} {v : Byte} {c : Host.Cell} (h : c ∈ Memory.insert a v m) :
    c = (a, v) ∨ c ∈ m := by
  induction m with
  | nil => simpa [Memory.insert] using h
  | cons d m ih =>
    unfold Memory.insert at h
    split at h
    · simpa using h
    · rcases List.mem_cons.mp h with rfl | h
      · simp
      · rcases ih h with h | h <;> simp [h]

theorem insert_rising {m : Memory} {a : Nat} {v : Byte} (hm : m.Pairwise (fun p q => p.1 < q.1))
    (ha : ∀ c ∈ m, c.1 ≠ a) : (Memory.insert a v m).Pairwise (fun p q => p.1 < q.1) := by
  induction m with
  | nil => simp [Memory.insert]
  | cons c m ih =>
    obtain ⟨hc, hm⟩ := List.pairwise_cons.mp hm
    unfold Memory.insert
    split
    · next h =>
      refine List.pairwise_cons.mpr ⟨fun d hd => ?_, List.pairwise_cons.mpr ⟨hc, hm⟩⟩
      rcases List.mem_cons.mp hd with rfl | hd
      · exact h
      · exact lt_trans h (hc d hd)
    · next h =>
      refine List.pairwise_cons.mpr ⟨fun d hd => ?_, ih hm (fun d hd => ha d (by simp [hd]))⟩
      have := ha c (by simp)
      rcases mem_insert hd with rfl | hd
      · show c.1 < a; omega
      · exact hc d hd

/-- A write of a slot keeps the canonical form. -/
theorem write_wf {m : Memory} (a : Slot) (v : Byte) (h : m.wf) : (m.write a.toNat v).wf := by
  have hf : (m.filter (fun c => c.1 ≠ a.toNat)).Pairwise (fun p q => p.1 < q.1) := h.1.filter _
  unfold Memory.write
  split
  · exact ⟨hf, fun c hc => h.2 c (List.mem_filter.mp hc).1⟩
  · next hv =>
    refine ⟨insert_rising hf (by simp), fun c hc => ?_⟩
    rcases mem_insert hc with rfl | hc
    · exact ⟨a.isLt, hv⟩
    · exact h.2 c (List.mem_filter.mp hc).1

/-- The memory of the reset state has the canonical form. -/
theorem reset_wf : State.reset.buf.wf := by decide

theorem memWrite_wf {s : State} (a : Slot) (v : Int) (h : s.buf.wf) : (memWrite s a v).buf.wf := write_wf a _ h

theorem resetRegisters_wf (s : State) : (resetRegisters s).buf.wf := by
  exact ⟨List.Pairwise.nil, by simp [resetRegisters]⟩

/-- `MemRead` after `MemWrite` of the same slot (rules R42, R43). -/
@[simp] theorem memRead_memWrite_same (s : State) (a : Slot) (v : Int) : memRead (memWrite s a v) a = wrap 8 v := by
  simp [memRead, slotByte, memWrite]

/-- The integer a slot holds fits the slot's 8 bits. -/
@[simp] theorem memRead_field (s : State) (a : Slot) : sext (field 8 (memRead s a)) = memRead s a := by
  unfold memRead
  rw [field_sext]

/-- `MemRead` depends on the history FIFO alone. -/
theorem memRead_congr {s t : State} (h : t.buf = s.buf) (a : Slot) : memRead t a = memRead s a := by
  unfold memRead slotByte
  rw [h]

/-- A push to slot `a` changes slot `a` only (rule R46). -/
theorem memRead_memWrite_other (s : State) {a b : Slot} (v : Int) (h : b ≠ a) :
    memRead (memWrite s a v) b = memRead s b := by
  have : b.toNat ≠ a.toNat := fun e => h (BitVec.eq_of_toNat_eq e)
  simp [memRead, slotByte, memWrite, read_write_other _ _ this]

end Sys2Proof.Machine
end

