-- ==== Sys2Proof/Laws/State.lean ====
section
/-! SUPPORT. What each named update of the state does to each field: one lemma per field per update. The signed
registers have their width from the configuration, so their lemmas are about the integers they hold. -/

namespace Sys2Proof.Machine

@[simp] theorem emit_cfg (o : Output) (s : State) : (emit o s).cfg = s.cfg := rfl
@[simp] theorem emit_xCur (o : Output) (s : State) : readXCur (emit o s) = readXCur s := rfl
@[simp] theorem emit_xPrev (o : Output) (s : State) : readXPrev (emit o s) = readXPrev s := rfl
@[simp] theorem emit_y (o : Output) (s : State) : readY (emit o s) = readY s := rfl
@[simp] theorem emit_buf (o : Output) (s : State) : (emit o s).buf = s.buf := rfl
@[simp] theorem emit_idx (o : Output) (s : State) : (emit o s).idx = s.idx := rfl
@[simp] theorem emit_d (o : Output) (s : State) : (emit o s).d = s.d := rfl
@[simp] theorem emit_sub (o : Output) (s : State) : (emit o s).sub = s.sub := rfl
@[simp] theorem emit_pend (o : Output) (s : State) : (emit o s).pend = s.pend := rfl
@[simp] theorem emit_duty (o : Output) (s : State) : (emit o s).duty = s.duty := rfl
@[simp] theorem emit_modAct (o : Output) (s : State) : (emit o s).modAct = s.modAct := rfl
@[simp] theorem emit_committed (o : Output) (s : State) : (emit o s).committed = s.committed := rfl
@[simp] theorem emit_adcStart (o : Output) (s : State) : (emit o s).adcStart = s.adcStart := rfl
@[simp] theorem emit_ph (o : Output) (s : State) : (emit o s).ph = s.ph := rfl
@[simp] theorem emit_faults (o : Output) (s : State) : (emit o s).faults = s.faults := rfl
@[simp] theorem emit_trace (o : Output) (s : State) : (emit o s).trace = s.trace ++ [o] := rfl
@[simp] theorem emit_stepNo (o : Output) (s : State) : (emit o s).stepNo = s.stepNo := rfl
@[simp] theorem emit_stim (o : Output) (s : State) : (emit o s).stim = s.stim := rfl
@[simp] theorem emit_tmp (o : Output) (s : State) : (emit o s).tmp = s.tmp := rfl
@[simp] theorem emit_memRead (o : Output) (s : State) (a : Slot) : memRead (emit o s) a = memRead s a := rfl

@[simp] theorem driveAdcStart_cfg (b : Bool) (s : State) : (driveAdcStart b s).cfg = s.cfg := rfl
@[simp] theorem driveAdcStart_xCur (b : Bool) (s : State) : readXCur (driveAdcStart b s) = readXCur s := rfl
@[simp] theorem driveAdcStart_xPrev (b : Bool) (s : State) : readXPrev (driveAdcStart b s) = readXPrev s := rfl
@[simp] theorem driveAdcStart_y (b : Bool) (s : State) : readY (driveAdcStart b s) = readY s := rfl
@[simp] theorem driveAdcStart_buf (b : Bool) (s : State) : (driveAdcStart b s).buf = s.buf := rfl
@[simp] theorem driveAdcStart_idx (b : Bool) (s : State) : (driveAdcStart b s).idx = s.idx := rfl
@[simp] theorem driveAdcStart_d (b : Bool) (s : State) : (driveAdcStart b s).d = s.d := rfl
@[simp] theorem driveAdcStart_sub (b : Bool) (s : State) : (driveAdcStart b s).sub = s.sub := rfl
@[simp] theorem driveAdcStart_pend (b : Bool) (s : State) : (driveAdcStart b s).pend = s.pend := rfl
@[simp] theorem driveAdcStart_duty (b : Bool) (s : State) : (driveAdcStart b s).duty = s.duty := rfl
@[simp] theorem driveAdcStart_modAct (b : Bool) (s : State) : (driveAdcStart b s).modAct = s.modAct := rfl
@[simp] theorem driveAdcStart_committed (b : Bool) (s : State) : (driveAdcStart b s).committed = s.committed := rfl
@[simp] theorem driveAdcStart_adcStart (b : Bool) (s : State) : (driveAdcStart b s).adcStart = b := rfl
@[simp] theorem driveAdcStart_ph (b : Bool) (s : State) : (driveAdcStart b s).ph = s.ph := rfl
@[simp] theorem driveAdcStart_faults (b : Bool) (s : State) : (driveAdcStart b s).faults = s.faults := rfl
@[simp] theorem driveAdcStart_trace (b : Bool) (s : State) : (driveAdcStart b s).trace = s.trace := rfl
@[simp] theorem driveAdcStart_stepNo (b : Bool) (s : State) : (driveAdcStart b s).stepNo = s.stepNo := rfl
@[simp] theorem driveAdcStart_stim (b : Bool) (s : State) : (driveAdcStart b s).stim = s.stim := rfl
@[simp] theorem driveAdcStart_tmp (b : Bool) (s : State) : (driveAdcStart b s).tmp = s.tmp := rfl
@[simp] theorem driveAdcStart_memRead (b : Bool) (s : State) (a : Slot) : memRead (driveAdcStart b s) a = memRead s a := rfl

@[simp] theorem raiseOrderIf_cfg (b : Bool) (c : OrderCause) (s : State) : (raiseOrderIf b c s).cfg = s.cfg := rfl
@[simp] theorem raiseOrderIf_xCur (b : Bool) (c : OrderCause) (s : State) : readXCur (raiseOrderIf b c s) = readXCur s := rfl
@[simp] theorem raiseOrderIf_xPrev (b : Bool) (c : OrderCause) (s : State) : readXPrev (raiseOrderIf b c s) = readXPrev s := rfl
@[simp] theorem raiseOrderIf_y (b : Bool) (c : OrderCause) (s : State) : readY (raiseOrderIf b c s) = readY s := rfl
@[simp] theorem raiseOrderIf_buf (b : Bool) (c : OrderCause) (s : State) : (raiseOrderIf b c s).buf = s.buf := rfl
@[simp] theorem raiseOrderIf_idx (b : Bool) (c : OrderCause) (s : State) : (raiseOrderIf b c s).idx = s.idx := rfl
@[simp] theorem raiseOrderIf_d (b : Bool) (c : OrderCause) (s : State) : (raiseOrderIf b c s).d = s.d := rfl
@[simp] theorem raiseOrderIf_sub (b : Bool) (c : OrderCause) (s : State) : (raiseOrderIf b c s).sub = s.sub := rfl
@[simp] theorem raiseOrderIf_pend (b : Bool) (c : OrderCause) (s : State) : (raiseOrderIf b c s).pend = s.pend := rfl
@[simp] theorem raiseOrderIf_duty (b : Bool) (c : OrderCause) (s : State) : (raiseOrderIf b c s).duty = s.duty := rfl
@[simp] theorem raiseOrderIf_modAct (b : Bool) (c : OrderCause) (s : State) : (raiseOrderIf b c s).modAct = s.modAct := rfl
@[simp] theorem raiseOrderIf_committed (b : Bool) (c : OrderCause) (s : State) : (raiseOrderIf b c s).committed = s.committed := rfl
@[simp] theorem raiseOrderIf_adcStart (b : Bool) (c : OrderCause) (s : State) : (raiseOrderIf b c s).adcStart = s.adcStart := rfl
@[simp] theorem raiseOrderIf_ph (b : Bool) (c : OrderCause) (s : State) : (raiseOrderIf b c s).ph = s.ph := rfl
@[simp] theorem raiseOrderIf_faults (b : Bool) (c : OrderCause) (s : State) : (raiseOrderIf b c s).faults = if b then s.faults ++ [⟨s.stepNo, c⟩] else s.faults := rfl
@[simp] theorem raiseOrderIf_trace (b : Bool) (c : OrderCause) (s : State) : (raiseOrderIf b c s).trace = s.trace := rfl
@[simp] theorem raiseOrderIf_stepNo (b : Bool) (c : OrderCause) (s : State) : (raiseOrderIf b c s).stepNo = s.stepNo := rfl
@[simp] theorem raiseOrderIf_stim (b : Bool) (c : OrderCause) (s : State) : (raiseOrderIf b c s).stim = s.stim := rfl
@[simp] theorem raiseOrderIf_tmp (b : Bool) (c : OrderCause) (s : State) : (raiseOrderIf b c s).tmp = s.tmp := rfl
@[simp] theorem raiseOrderIf_memRead (b : Bool) (c : OrderCause) (s : State) (a : Slot) : memRead (raiseOrderIf b c s) a = memRead s a := rfl

@[simp] theorem setPhase_cfg (p : Phase) (s : State) : (setPhase p s).cfg = s.cfg := rfl
@[simp] theorem setPhase_xCur (p : Phase) (s : State) : readXCur (setPhase p s) = readXCur s := rfl
@[simp] theorem setPhase_xPrev (p : Phase) (s : State) : readXPrev (setPhase p s) = readXPrev s := rfl
@[simp] theorem setPhase_y (p : Phase) (s : State) : readY (setPhase p s) = readY s := rfl
@[simp] theorem setPhase_buf (p : Phase) (s : State) : (setPhase p s).buf = s.buf := rfl
@[simp] theorem setPhase_idx (p : Phase) (s : State) : (setPhase p s).idx = s.idx := rfl
@[simp] theorem setPhase_d (p : Phase) (s : State) : (setPhase p s).d = s.d := rfl
@[simp] theorem setPhase_sub (p : Phase) (s : State) : (setPhase p s).sub = s.sub := rfl
@[simp] theorem setPhase_pend (p : Phase) (s : State) : (setPhase p s).pend = s.pend := rfl
@[simp] theorem setPhase_duty (p : Phase) (s : State) : (setPhase p s).duty = s.duty := rfl
@[simp] theorem setPhase_modAct (p : Phase) (s : State) : (setPhase p s).modAct = s.modAct := rfl
@[simp] theorem setPhase_committed (p : Phase) (s : State) : (setPhase p s).committed = s.committed := rfl
@[simp] theorem setPhase_adcStart (p : Phase) (s : State) : (setPhase p s).adcStart = s.adcStart := rfl
@[simp] theorem setPhase_ph (p : Phase) (s : State) : (setPhase p s).ph = p := rfl
@[simp] theorem setPhase_faults (p : Phase) (s : State) : (setPhase p s).faults = s.faults := rfl
@[simp] theorem setPhase_trace (p : Phase) (s : State) : (setPhase p s).trace = s.trace := rfl
@[simp] theorem setPhase_stepNo (p : Phase) (s : State) : (setPhase p s).stepNo = s.stepNo := rfl
@[simp] theorem setPhase_stim (p : Phase) (s : State) : (setPhase p s).stim = s.stim := rfl
@[simp] theorem setPhase_tmp (p : Phase) (s : State) : (setPhase p s).tmp = s.tmp := rfl
@[simp] theorem setPhase_memRead (p : Phase) (s : State) (a : Slot) : memRead (setPhase p s) a = memRead s a := rfl

@[simp] theorem setTmp_cfg (m : Temps) (s : State) : (setTmp m s).cfg = s.cfg := rfl
@[simp] theorem setTmp_xCur (m : Temps) (s : State) : readXCur (setTmp m s) = readXCur s := rfl
@[simp] theorem setTmp_xPrev (m : Temps) (s : State) : readXPrev (setTmp m s) = readXPrev s := rfl
@[simp] theorem setTmp_y (m : Temps) (s : State) : readY (setTmp m s) = readY s := rfl
@[simp] theorem setTmp_buf (m : Temps) (s : State) : (setTmp m s).buf = s.buf := rfl
@[simp] theorem setTmp_idx (m : Temps) (s : State) : (setTmp m s).idx = s.idx := rfl
@[simp] theorem setTmp_d (m : Temps) (s : State) : (setTmp m s).d = s.d := rfl
@[simp] theorem setTmp_sub (m : Temps) (s : State) : (setTmp m s).sub = s.sub := rfl
@[simp] theorem setTmp_pend (m : Temps) (s : State) : (setTmp m s).pend = s.pend := rfl
@[simp] theorem setTmp_duty (m : Temps) (s : State) : (setTmp m s).duty = s.duty := rfl
@[simp] theorem setTmp_modAct (m : Temps) (s : State) : (setTmp m s).modAct = s.modAct := rfl
@[simp] theorem setTmp_committed (m : Temps) (s : State) : (setTmp m s).committed = s.committed := rfl
@[simp] theorem setTmp_adcStart (m : Temps) (s : State) : (setTmp m s).adcStart = s.adcStart := rfl
@[simp] theorem setTmp_ph (m : Temps) (s : State) : (setTmp m s).ph = s.ph := rfl
@[simp] theorem setTmp_faults (m : Temps) (s : State) : (setTmp m s).faults = s.faults := rfl
@[simp] theorem setTmp_trace (m : Temps) (s : State) : (setTmp m s).trace = s.trace := rfl
@[simp] theorem setTmp_stepNo (m : Temps) (s : State) : (setTmp m s).stepNo = s.stepNo := rfl
@[simp] theorem setTmp_stim (m : Temps) (s : State) : (setTmp m s).stim = s.stim := rfl
@[simp] theorem setTmp_tmp (m : Temps) (s : State) : (setTmp m s).tmp = m := rfl
@[simp] theorem setTmp_memRead (m : Temps) (s : State) (a : Slot) : memRead (setTmp m s) a = memRead s a := rfl

@[simp] theorem countStep_cfg (s : State) : (countStep s).cfg = s.cfg := rfl
@[simp] theorem countStep_xCur (s : State) : readXCur (countStep s) = readXCur s := rfl
@[simp] theorem countStep_xPrev (s : State) : readXPrev (countStep s) = readXPrev s := rfl
@[simp] theorem countStep_y (s : State) : readY (countStep s) = readY s := rfl
@[simp] theorem countStep_buf (s : State) : (countStep s).buf = s.buf := rfl
@[simp] theorem countStep_idx (s : State) : (countStep s).idx = s.idx := rfl
@[simp] theorem countStep_d (s : State) : (countStep s).d = s.d := rfl
@[simp] theorem countStep_sub (s : State) : (countStep s).sub = s.sub := rfl
@[simp] theorem countStep_pend (s : State) : (countStep s).pend = s.pend := rfl
@[simp] theorem countStep_duty (s : State) : (countStep s).duty = s.duty := rfl
@[simp] theorem countStep_modAct (s : State) : (countStep s).modAct = s.modAct := rfl
@[simp] theorem countStep_committed (s : State) : (countStep s).committed = s.committed := rfl
@[simp] theorem countStep_adcStart (s : State) : (countStep s).adcStart = s.adcStart := rfl
@[simp] theorem countStep_ph (s : State) : (countStep s).ph = s.ph := rfl
@[simp] theorem countStep_faults (s : State) : (countStep s).faults = s.faults := rfl
@[simp] theorem countStep_trace (s : State) : (countStep s).trace = s.trace := rfl
@[simp] theorem countStep_stepNo (s : State) : (countStep s).stepNo = s.stepNo + 1 := rfl
@[simp] theorem countStep_stim (s : State) : (countStep s).stim = s.stim := rfl
@[simp] theorem countStep_tmp (s : State) : (countStep s).tmp = s.tmp := rfl
@[simp] theorem countStep_memRead (s : State) (a : Slot) : memRead (countStep s) a = memRead s a := rfl

@[simp] theorem latchModulator_cfg (i : Instr) (b : Bool) (s : State) : (latchModulator i b s).cfg = s.cfg := rfl
@[simp] theorem latchModulator_xCur (i : Instr) (b : Bool) (s : State) : readXCur (latchModulator i b s) = readXCur s := rfl
@[simp] theorem latchModulator_xPrev (i : Instr) (b : Bool) (s : State) : readXPrev (latchModulator i b s) = readXPrev s := rfl
@[simp] theorem latchModulator_y (i : Instr) (b : Bool) (s : State) : readY (latchModulator i b s) = readY s := rfl
@[simp] theorem latchModulator_buf (i : Instr) (b : Bool) (s : State) : (latchModulator i b s).buf = s.buf := rfl
@[simp] theorem latchModulator_idx (i : Instr) (b : Bool) (s : State) : (latchModulator i b s).idx = s.idx := rfl
@[simp] theorem latchModulator_d (i : Instr) (b : Bool) (s : State) : (latchModulator i b s).d = s.d := rfl
@[simp] theorem latchModulator_sub (i : Instr) (b : Bool) (s : State) : (latchModulator i b s).sub = s.sub := rfl
@[simp] theorem latchModulator_pend (i : Instr) (b : Bool) (s : State) : (latchModulator i b s).pend = s.pend := rfl
@[simp] theorem latchModulator_duty (i : Instr) (b : Bool) (s : State) : (latchModulator i b s).duty = s.duty := rfl
@[simp] theorem latchModulator_modAct (i : Instr) (b : Bool) (s : State) : (latchModulator i b s).modAct = nextModAct i b s := rfl
@[simp] theorem latchModulator_committed (i : Instr) (b : Bool) (s : State) : (latchModulator i b s).committed = s.committed := rfl
@[simp] theorem latchModulator_adcStart (i : Instr) (b : Bool) (s : State) : (latchModulator i b s).adcStart = s.adcStart := rfl
@[simp] theorem latchModulator_ph (i : Instr) (b : Bool) (s : State) : (latchModulator i b s).ph = s.ph := rfl
@[simp] theorem latchModulator_faults (i : Instr) (b : Bool) (s : State) : (latchModulator i b s).faults = s.faults := rfl
@[simp] theorem latchModulator_trace (i : Instr) (b : Bool) (s : State) : (latchModulator i b s).trace = s.trace := rfl
@[simp] theorem latchModulator_stepNo (i : Instr) (b : Bool) (s : State) : (latchModulator i b s).stepNo = s.stepNo := rfl
@[simp] theorem latchModulator_stim (i : Instr) (b : Bool) (s : State) : (latchModulator i b s).stim = s.stim := rfl
@[simp] theorem latchModulator_tmp (i : Instr) (b : Bool) (s : State) : (latchModulator i b s).tmp = s.tmp := rfl
@[simp] theorem latchModulator_memRead (i : Instr) (b : Bool) (s : State) (a : Slot) : memRead (latchModulator i b s) a = memRead s a := rfl

@[simp] theorem noteCommit_cfg (i : Instr) (s : State) : (noteCommit i s).cfg = s.cfg := rfl
@[simp] theorem noteCommit_xCur (i : Instr) (s : State) : readXCur (noteCommit i s) = readXCur s := rfl
@[simp] theorem noteCommit_xPrev (i : Instr) (s : State) : readXPrev (noteCommit i s) = readXPrev s := rfl
@[simp] theorem noteCommit_y (i : Instr) (s : State) : readY (noteCommit i s) = readY s := rfl
@[simp] theorem noteCommit_buf (i : Instr) (s : State) : (noteCommit i s).buf = s.buf := rfl
@[simp] theorem noteCommit_idx (i : Instr) (s : State) : (noteCommit i s).idx = s.idx := rfl
@[simp] theorem noteCommit_d (i : Instr) (s : State) : (noteCommit i s).d = s.d := rfl
@[simp] theorem noteCommit_sub (i : Instr) (s : State) : (noteCommit i s).sub = s.sub := rfl
@[simp] theorem noteCommit_pend (i : Instr) (s : State) : (noteCommit i s).pend = s.pend := rfl
@[simp] theorem noteCommit_duty (i : Instr) (s : State) : (noteCommit i s).duty = s.duty := rfl
@[simp] theorem noteCommit_modAct (i : Instr) (s : State) : (noteCommit i s).modAct = s.modAct := rfl
@[simp] theorem noteCommit_committed (i : Instr) (s : State) : (noteCommit i s).committed = nextCommitted i s := rfl
@[simp] theorem noteCommit_adcStart (i : Instr) (s : State) : (noteCommit i s).adcStart = s.adcStart := rfl
@[simp] theorem noteCommit_ph (i : Instr) (s : State) : (noteCommit i s).ph = s.ph := rfl
@[simp] theorem noteCommit_faults (i : Instr) (s : State) : (noteCommit i s).faults = s.faults := rfl
@[simp] theorem noteCommit_trace (i : Instr) (s : State) : (noteCommit i s).trace = s.trace := rfl
@[simp] theorem noteCommit_stepNo (i : Instr) (s : State) : (noteCommit i s).stepNo = s.stepNo := rfl
@[simp] theorem noteCommit_stim (i : Instr) (s : State) : (noteCommit i s).stim = s.stim := rfl
@[simp] theorem noteCommit_tmp (i : Instr) (s : State) : (noteCommit i s).tmp = s.tmp := rfl
@[simp] theorem noteCommit_memRead (i : Instr) (s : State) (a : Slot) : memRead (noteCommit i s) a = memRead s a := rfl

@[simp] theorem memWrite_cfg (s : State) (a : Slot) (v : Int) : (memWrite s a v).cfg = s.cfg := rfl
@[simp] theorem memWrite_xCur (s : State) (a : Slot) (v : Int) : readXCur (memWrite s a v) = readXCur s := rfl
@[simp] theorem memWrite_xPrev (s : State) (a : Slot) (v : Int) : readXPrev (memWrite s a v) = readXPrev s := rfl
@[simp] theorem memWrite_y (s : State) (a : Slot) (v : Int) : readY (memWrite s a v) = readY s := rfl
@[simp] theorem memWrite_buf (s : State) (a : Slot) (v : Int) : (memWrite s a v).buf = s.buf.write a.toNat (field 8 v) := rfl
@[simp] theorem memWrite_idx (s : State) (a : Slot) (v : Int) : (memWrite s a v).idx = s.idx := rfl
@[simp] theorem memWrite_d (s : State) (a : Slot) (v : Int) : (memWrite s a v).d = s.d := rfl
@[simp] theorem memWrite_sub (s : State) (a : Slot) (v : Int) : (memWrite s a v).sub = s.sub := rfl
@[simp] theorem memWrite_pend (s : State) (a : Slot) (v : Int) : (memWrite s a v).pend = s.pend := rfl
@[simp] theorem memWrite_duty (s : State) (a : Slot) (v : Int) : (memWrite s a v).duty = s.duty := rfl
@[simp] theorem memWrite_modAct (s : State) (a : Slot) (v : Int) : (memWrite s a v).modAct = s.modAct := rfl
@[simp] theorem memWrite_committed (s : State) (a : Slot) (v : Int) : (memWrite s a v).committed = s.committed := rfl
@[simp] theorem memWrite_adcStart (s : State) (a : Slot) (v : Int) : (memWrite s a v).adcStart = s.adcStart := rfl
@[simp] theorem memWrite_ph (s : State) (a : Slot) (v : Int) : (memWrite s a v).ph = s.ph := rfl
@[simp] theorem memWrite_faults (s : State) (a : Slot) (v : Int) : (memWrite s a v).faults = s.faults := rfl
@[simp] theorem memWrite_trace (s : State) (a : Slot) (v : Int) : (memWrite s a v).trace = s.trace := rfl
@[simp] theorem memWrite_stepNo (s : State) (a : Slot) (v : Int) : (memWrite s a v).stepNo = s.stepNo := rfl
@[simp] theorem memWrite_stim (s : State) (a : Slot) (v : Int) : (memWrite s a v).stim = s.stim := rfl
@[simp] theorem memWrite_tmp (s : State) (a : Slot) (v : Int) : (memWrite s a v).tmp = s.tmp := rfl

@[simp] theorem fifoPush_cfg (s : State) : (fifoPush s).cfg = s.cfg := rfl
@[simp] theorem fifoPush_xCur (s : State) : readXCur (fifoPush s) = readXCur s := rfl
@[simp] theorem fifoPush_xPrev (s : State) : readXPrev (fifoPush s) = readXPrev s := rfl
@[simp] theorem fifoPush_y (s : State) : readY (fifoPush s) = readY s := rfl
@[simp] theorem fifoPush_buf (s : State) : (fifoPush s).buf = s.buf.write s.idx.toNat (field 8 s.tmp.v) := rfl
@[simp] theorem fifoPush_idx (s : State) : (fifoPush s).idx = s.idx := rfl
@[simp] theorem fifoPush_d (s : State) : (fifoPush s).d = s.d := rfl
@[simp] theorem fifoPush_sub (s : State) : (fifoPush s).sub = s.sub := rfl
@[simp] theorem fifoPush_pend (s : State) : (fifoPush s).pend = s.pend := rfl
@[simp] theorem fifoPush_duty (s : State) : (fifoPush s).duty = s.duty := rfl
@[simp] theorem fifoPush_modAct (s : State) : (fifoPush s).modAct = s.modAct := rfl
@[simp] theorem fifoPush_committed (s : State) : (fifoPush s).committed = s.committed := rfl
@[simp] theorem fifoPush_adcStart (s : State) : (fifoPush s).adcStart = s.adcStart := rfl
@[simp] theorem fifoPush_ph (s : State) : (fifoPush s).ph = s.ph := rfl
@[simp] theorem fifoPush_faults (s : State) : (fifoPush s).faults = s.faults := rfl
@[simp] theorem fifoPush_trace (s : State) : (fifoPush s).trace = s.trace := rfl
@[simp] theorem fifoPush_stepNo (s : State) : (fifoPush s).stepNo = s.stepNo := rfl
@[simp] theorem fifoPush_stim (s : State) : (fifoPush s).stim = s.stim := rfl
@[simp] theorem fifoPush_tmp (s : State) : (fifoPush s).tmp = s.tmp := rfl

@[simp] theorem dropTemps_cfg (s : State) : (dropTemps s).cfg = s.cfg := rfl
@[simp] theorem dropTemps_xCur (s : State) : readXCur (dropTemps s) = readXCur s := rfl
@[simp] theorem dropTemps_xPrev (s : State) : readXPrev (dropTemps s) = readXPrev s := rfl
@[simp] theorem dropTemps_y (s : State) : readY (dropTemps s) = readY s := rfl
@[simp] theorem dropTemps_buf (s : State) : (dropTemps s).buf = s.buf := rfl
@[simp] theorem dropTemps_idx (s : State) : (dropTemps s).idx = s.idx := rfl
@[simp] theorem dropTemps_d (s : State) : (dropTemps s).d = s.d := rfl
@[simp] theorem dropTemps_sub (s : State) : (dropTemps s).sub = s.sub := rfl
@[simp] theorem dropTemps_pend (s : State) : (dropTemps s).pend = s.pend := rfl
@[simp] theorem dropTemps_duty (s : State) : (dropTemps s).duty = s.duty := rfl
@[simp] theorem dropTemps_modAct (s : State) : (dropTemps s).modAct = s.modAct := rfl
@[simp] theorem dropTemps_committed (s : State) : (dropTemps s).committed = s.committed := rfl
@[simp] theorem dropTemps_adcStart (s : State) : (dropTemps s).adcStart = s.adcStart := rfl
@[simp] theorem dropTemps_ph (s : State) : (dropTemps s).ph = s.ph := rfl
@[simp] theorem dropTemps_faults (s : State) : (dropTemps s).faults = s.faults := rfl
@[simp] theorem dropTemps_trace (s : State) : (dropTemps s).trace = s.trace := rfl
@[simp] theorem dropTemps_stepNo (s : State) : (dropTemps s).stepNo = s.stepNo := rfl
@[simp] theorem dropTemps_stim (s : State) : (dropTemps s).stim = s.stim := rfl
@[simp] theorem dropTemps_tmp (s : State) : (dropTemps s).tmp = Temps.clear := rfl
@[simp] theorem dropTemps_memRead (s : State) (a : Slot) : memRead (dropTemps s) a = memRead s a := rfl

@[simp] theorem resetRegisters_cfg (s : State) : (resetRegisters s).cfg = s.cfg := rfl
@[simp] theorem resetRegisters_xCur (s : State) : readXCur (resetRegisters s) = 0 := by simp [sext, readXCur, resetRegisters]
@[simp] theorem resetRegisters_xPrev (s : State) : readXPrev (resetRegisters s) = 0 := by simp [sext, readXPrev, resetRegisters]
@[simp] theorem resetRegisters_y (s : State) : readY (resetRegisters s) = 0 := by simp [sext, readY, resetRegisters]
@[simp] theorem resetRegisters_buf (s : State) : (resetRegisters s).buf = [] := rfl
@[simp] theorem resetRegisters_idx (s : State) : (resetRegisters s).idx = 0 := rfl
@[simp] theorem resetRegisters_d (s : State) : (resetRegisters s).d = 0 := rfl
@[simp] theorem resetRegisters_sub (s : State) : (resetRegisters s).sub = 0 := rfl
@[simp] theorem resetRegisters_pend (s : State) : (resetRegisters s).pend = 0x80 := rfl
@[simp] theorem resetRegisters_duty (s : State) : (resetRegisters s).duty = 0x80 := rfl
@[simp] theorem resetRegisters_modAct (s : State) : (resetRegisters s).modAct = s.modAct := rfl
@[simp] theorem resetRegisters_committed (s : State) : (resetRegisters s).committed = s.committed := rfl
@[simp] theorem resetRegisters_adcStart (s : State) : (resetRegisters s).adcStart = s.adcStart := rfl
@[simp] theorem resetRegisters_ph (s : State) : (resetRegisters s).ph = s.ph := rfl
@[simp] theorem resetRegisters_faults (s : State) : (resetRegisters s).faults = s.faults := rfl
@[simp] theorem resetRegisters_trace (s : State) : (resetRegisters s).trace = s.trace := rfl
@[simp] theorem resetRegisters_stepNo (s : State) : (resetRegisters s).stepNo = s.stepNo := rfl
@[simp] theorem resetRegisters_stim (s : State) : (resetRegisters s).stim = s.stim := rfl
@[simp] theorem resetRegisters_tmp (s : State) : (resetRegisters s).tmp = s.tmp := rfl

@[simp] theorem dcbShift_cfg (s : State) : (dcbShift s).cfg = s.cfg := rfl
@[simp] theorem dcbShift_xCur (s : State) : readXCur (dcbShift s) = wrap s.cfg.rawW s.tmp.raw := rfl
@[simp] theorem dcbShift_xPrev (s : State) : readXPrev (dcbShift s) = readXCur s := rfl
@[simp] theorem dcbShift_y (s : State) : readY (dcbShift s) = readY s := rfl
@[simp] theorem dcbShift_buf (s : State) : (dcbShift s).buf = s.buf := rfl
@[simp] theorem dcbShift_idx (s : State) : (dcbShift s).idx = s.idx := rfl
@[simp] theorem dcbShift_d (s : State) : (dcbShift s).d = s.d := rfl
@[simp] theorem dcbShift_sub (s : State) : (dcbShift s).sub = s.sub := rfl
@[simp] theorem dcbShift_pend (s : State) : (dcbShift s).pend = s.pend := rfl
@[simp] theorem dcbShift_duty (s : State) : (dcbShift s).duty = s.duty := rfl
@[simp] theorem dcbShift_modAct (s : State) : (dcbShift s).modAct = s.modAct := rfl
@[simp] theorem dcbShift_committed (s : State) : (dcbShift s).committed = s.committed := rfl
@[simp] theorem dcbShift_adcStart (s : State) : (dcbShift s).adcStart = s.adcStart := rfl
@[simp] theorem dcbShift_ph (s : State) : (dcbShift s).ph = s.ph := rfl
@[simp] theorem dcbShift_faults (s : State) : (dcbShift s).faults = s.faults := rfl
@[simp] theorem dcbShift_trace (s : State) : (dcbShift s).trace = s.trace := rfl
@[simp] theorem dcbShift_stepNo (s : State) : (dcbShift s).stepNo = s.stepNo := rfl
@[simp] theorem dcbShift_stim (s : State) : (dcbShift s).stim = s.stim := rfl
@[simp] theorem dcbShift_tmp (s : State) : (dcbShift s).tmp = s.tmp := rfl
@[simp] theorem dcbShift_memRead (s : State) (a : Slot) : memRead (dcbShift s) a = memRead s a := rfl

@[simp] theorem dcbLeak_cfg (s : State) : (dcbLeak s).cfg = s.cfg := rfl
@[simp] theorem dcbLeak_xCur (s : State) : readXCur (dcbLeak s) = readXCur s := rfl
@[simp] theorem dcbLeak_xPrev (s : State) : readXPrev (dcbLeak s) = readXPrev s := rfl
@[simp] theorem dcbLeak_y (s : State) : readY (dcbLeak s) = wrap s.cfg.accW (s.tmp.t - asr s.tmp.t s.cfg.leakShift) := rfl
@[simp] theorem dcbLeak_buf (s : State) : (dcbLeak s).buf = s.buf := rfl
@[simp] theorem dcbLeak_idx (s : State) : (dcbLeak s).idx = s.idx := rfl
@[simp] theorem dcbLeak_d (s : State) : (dcbLeak s).d = s.d := rfl
@[simp] theorem dcbLeak_sub (s : State) : (dcbLeak s).sub = s.sub := rfl
@[simp] theorem dcbLeak_pend (s : State) : (dcbLeak s).pend = s.pend := rfl
@[simp] theorem dcbLeak_duty (s : State) : (dcbLeak s).duty = s.duty := rfl
@[simp] theorem dcbLeak_modAct (s : State) : (dcbLeak s).modAct = s.modAct := rfl
@[simp] theorem dcbLeak_committed (s : State) : (dcbLeak s).committed = s.committed := rfl
@[simp] theorem dcbLeak_adcStart (s : State) : (dcbLeak s).adcStart = s.adcStart := rfl
@[simp] theorem dcbLeak_ph (s : State) : (dcbLeak s).ph = s.ph := rfl
@[simp] theorem dcbLeak_faults (s : State) : (dcbLeak s).faults = s.faults := rfl
@[simp] theorem dcbLeak_trace (s : State) : (dcbLeak s).trace = s.trace := rfl
@[simp] theorem dcbLeak_stepNo (s : State) : (dcbLeak s).stepNo = s.stepNo := rfl
@[simp] theorem dcbLeak_stim (s : State) : (dcbLeak s).stim = s.stim := rfl
@[simp] theorem dcbLeak_tmp (s : State) : (dcbLeak s).tmp = s.tmp := rfl
@[simp] theorem dcbLeak_memRead (s : State) (a : Slot) : memRead (dcbLeak s) a = memRead s a := rfl

@[simp] theorem fifoAdv_cfg (s : State) : (fifoAdv s).cfg = s.cfg := rfl
@[simp] theorem fifoAdv_xCur (s : State) : readXCur (fifoAdv s) = readXCur s := rfl
@[simp] theorem fifoAdv_xPrev (s : State) : readXPrev (fifoAdv s) = readXPrev s := rfl
@[simp] theorem fifoAdv_y (s : State) : readY (fifoAdv s) = readY s := rfl
@[simp] theorem fifoAdv_buf (s : State) : (fifoAdv s).buf = s.buf := rfl
@[simp] theorem fifoAdv_idx (s : State) : (fifoAdv s).idx = field 7 (mod128 (zext s.idx + 1)) := rfl
@[simp] theorem fifoAdv_d (s : State) : (fifoAdv s).d = s.d := rfl
@[simp] theorem fifoAdv_sub (s : State) : (fifoAdv s).sub = s.sub := rfl
@[simp] theorem fifoAdv_pend (s : State) : (fifoAdv s).pend = s.pend := rfl
@[simp] theorem fifoAdv_duty (s : State) : (fifoAdv s).duty = s.duty := rfl
@[simp] theorem fifoAdv_modAct (s : State) : (fifoAdv s).modAct = s.modAct := rfl
@[simp] theorem fifoAdv_committed (s : State) : (fifoAdv s).committed = s.committed := rfl
@[simp] theorem fifoAdv_adcStart (s : State) : (fifoAdv s).adcStart = s.adcStart := rfl
@[simp] theorem fifoAdv_ph (s : State) : (fifoAdv s).ph = s.ph := rfl
@[simp] theorem fifoAdv_faults (s : State) : (fifoAdv s).faults = s.faults := rfl
@[simp] theorem fifoAdv_trace (s : State) : (fifoAdv s).trace = s.trace := rfl
@[simp] theorem fifoAdv_stepNo (s : State) : (fifoAdv s).stepNo = s.stepNo := rfl
@[simp] theorem fifoAdv_stim (s : State) : (fifoAdv s).stim = s.stim := rfl
@[simp] theorem fifoAdv_tmp (s : State) : (fifoAdv s).tmp = s.tmp := rfl
@[simp] theorem fifoAdv_memRead (s : State) (a : Slot) : memRead (fifoAdv s) a = memRead s a := rfl

@[simp] theorem lfoStep_cfg (s : State) : (lfoStep s).cfg = s.cfg := rfl
@[simp] theorem lfoStep_xCur (s : State) : readXCur (lfoStep s) = readXCur s := rfl
@[simp] theorem lfoStep_xPrev (s : State) : readXPrev (lfoStep s) = readXPrev s := rfl
@[simp] theorem lfoStep_y (s : State) : readY (lfoStep s) = readY s := rfl
@[simp] theorem lfoStep_buf (s : State) : (lfoStep s).buf = s.buf := rfl
@[simp] theorem lfoStep_idx (s : State) : (lfoStep s).idx = s.idx := rfl
@[simp] theorem lfoStep_d (s : State) : (lfoStep s).d = (lfoNext s.cfg.chorusPeriod s.sub s.d).2 := rfl
@[simp] theorem lfoStep_sub (s : State) : (lfoStep s).sub = (lfoNext s.cfg.chorusPeriod s.sub s.d).1 := rfl
@[simp] theorem lfoStep_pend (s : State) : (lfoStep s).pend = s.pend := rfl
@[simp] theorem lfoStep_duty (s : State) : (lfoStep s).duty = s.duty := rfl
@[simp] theorem lfoStep_modAct (s : State) : (lfoStep s).modAct = s.modAct := rfl
@[simp] theorem lfoStep_committed (s : State) : (lfoStep s).committed = s.committed := rfl
@[simp] theorem lfoStep_adcStart (s : State) : (lfoStep s).adcStart = s.adcStart := rfl
@[simp] theorem lfoStep_ph (s : State) : (lfoStep s).ph = s.ph := rfl
@[simp] theorem lfoStep_faults (s : State) : (lfoStep s).faults = s.faults := rfl
@[simp] theorem lfoStep_trace (s : State) : (lfoStep s).trace = s.trace := rfl
@[simp] theorem lfoStep_stepNo (s : State) : (lfoStep s).stepNo = s.stepNo := rfl
@[simp] theorem lfoStep_stim (s : State) : (lfoStep s).stim = s.stim := rfl
@[simp] theorem lfoStep_tmp (s : State) : (lfoStep s).tmp = s.tmp := rfl
@[simp] theorem lfoStep_memRead (s : State) (a : Slot) : memRead (lfoStep s) a = memRead s a := rfl

@[simp] theorem outPend_cfg (s : State) : (outPend s).cfg = s.cfg := rfl
@[simp] theorem outPend_xCur (s : State) : readXCur (outPend s) = readXCur s := rfl
@[simp] theorem outPend_xPrev (s : State) : readXPrev (outPend s) = readXPrev s := rfl
@[simp] theorem outPend_y (s : State) : readY (outPend s) = readY s := rfl
@[simp] theorem outPend_buf (s : State) : (outPend s).buf = s.buf := rfl
@[simp] theorem outPend_idx (s : State) : (outPend s).idx = s.idx := rfl
@[simp] theorem outPend_d (s : State) : (outPend s).d = s.d := rfl
@[simp] theorem outPend_sub (s : State) : (outPend s).sub = s.sub := rfl
@[simp] theorem outPend_pend (s : State) : (outPend s).pend = field 8 s.tmp.u := rfl
@[simp] theorem outPend_duty (s : State) : (outPend s).duty = s.duty := rfl
@[simp] theorem outPend_modAct (s : State) : (outPend s).modAct = s.modAct := rfl
@[simp] theorem outPend_committed (s : State) : (outPend s).committed = s.committed := rfl
@[simp] theorem outPend_adcStart (s : State) : (outPend s).adcStart = s.adcStart := rfl
@[simp] theorem outPend_ph (s : State) : (outPend s).ph = s.ph := rfl
@[simp] theorem outPend_faults (s : State) : (outPend s).faults = s.faults := rfl
@[simp] theorem outPend_trace (s : State) : (outPend s).trace = s.trace := rfl
@[simp] theorem outPend_stepNo (s : State) : (outPend s).stepNo = s.stepNo := rfl
@[simp] theorem outPend_stim (s : State) : (outPend s).stim = s.stim := rfl
@[simp] theorem outPend_tmp (s : State) : (outPend s).tmp = s.tmp := rfl
@[simp] theorem outPend_memRead (s : State) (a : Slot) : memRead (outPend s) a = memRead s a := rfl

@[simp] theorem outCommit_cfg (s : State) : (outCommit s).cfg = s.cfg := rfl
@[simp] theorem outCommit_xCur (s : State) : readXCur (outCommit s) = readXCur s := rfl
@[simp] theorem outCommit_xPrev (s : State) : readXPrev (outCommit s) = readXPrev s := rfl
@[simp] theorem outCommit_y (s : State) : readY (outCommit s) = readY s := rfl
@[simp] theorem outCommit_buf (s : State) : (outCommit s).buf = s.buf := rfl
@[simp] theorem outCommit_idx (s : State) : (outCommit s).idx = s.idx := rfl
@[simp] theorem outCommit_d (s : State) : (outCommit s).d = s.d := rfl
@[simp] theorem outCommit_sub (s : State) : (outCommit s).sub = s.sub := rfl
@[simp] theorem outCommit_pend (s : State) : (outCommit s).pend = s.pend := rfl
@[simp] theorem outCommit_duty (s : State) : (outCommit s).duty = s.pend := rfl
@[simp] theorem outCommit_modAct (s : State) : (outCommit s).modAct = s.modAct := rfl
@[simp] theorem outCommit_committed (s : State) : (outCommit s).committed = s.committed := rfl
@[simp] theorem outCommit_adcStart (s : State) : (outCommit s).adcStart = s.adcStart := rfl
@[simp] theorem outCommit_ph (s : State) : (outCommit s).ph = s.ph := rfl
@[simp] theorem outCommit_faults (s : State) : (outCommit s).faults = s.faults := rfl
@[simp] theorem outCommit_trace (s : State) : (outCommit s).trace = s.trace ++ [.dutyWrite s.pend] := rfl
@[simp] theorem outCommit_stepNo (s : State) : (outCommit s).stepNo = s.stepNo := rfl
@[simp] theorem outCommit_stim (s : State) : (outCommit s).stim = s.stim := rfl
@[simp] theorem outCommit_tmp (s : State) : (outCommit s).tmp = s.tmp := rfl
@[simp] theorem outCommit_memRead (s : State) (a : Slot) : memRead (outCommit s) a = memRead s a := rfl

end Sys2Proof.Machine
end

