-- ==== Sys2Proof/Laws/Ops.lean ====
section
/-! SUPPORT. What each shared operation can do, said once: the slow counter, the monitor, the fetch, the modulator's
latch, and one step. -/

namespace Sys2Proof.Machine

/-- The slow counter either wraps the sub-counter and steps the delay offset, or counts (rule R106). -/
theorem lfoNext_cases (cfg : Config) (sub d : Counter) :
    (cfg.chorusPeriod ≤ sub.toNat + 1 ∧ (lfoNext cfg.chorusPeriod sub d).1 = 0 ∧
      (lfoNext cfg.chorusPeriod sub d).2.toNat = (d.toNat + 1) % cfg.chorusPeriod) ∨
    (sub.toNat + 1 < cfg.chorusPeriod ∧ (lfoNext cfg.chorusPeriod sub d).1.toNat = sub.toNat + 1 ∧
      (lfoNext cfg.chorusPeriod sub d).2 = d) := by
  have hP := cfg.legal.2.2.2
  unfold lfoNext
  split
  · next h =>
    have := Nat.mod_lt (d.toNat + 1) (show cfg.chorusPeriod > 0 by omega)
    refine .inl ⟨h, rfl, ?_⟩
    rw [BitVec.toNat_ofNat, Nat.mod_eq_of_lt (by omega)]
  · next h =>
    refine .inr ⟨by omega, ?_, rfl⟩
    rw [BitVec.toNat_ofNat, Nat.mod_eq_of_lt (by omega)]

/-- SAMPLE answers a next state exactly for an operand in range. -/
theorem exec_sample_next_iff {raw : Int} {s t : State} :
    exec (.sample raw) s = .next t ↔
      s.cfg.FitsRaw raw ∧ t = monitorSample (dropTemps (runSample raw s)) := by
  show execSample raw s = .next t ↔ _
  unfold execSample
  split
  · next h => exact ⟨fun e => ⟨h, by cases e; rfl⟩, fun e => by rw [e.2]⟩
  · next h => exact ⟨nofun, fun e => absurd e.1 h⟩

/-- ADC.TRIG answers a next state exactly for an operand in range. -/
theorem exec_adcTrig_next_iff {raw : Int} {s t : State} :
    exec (.adcTrig raw) s = .next t ↔ s.cfg.FitsRaw raw ∧ t = adcTrig raw s := by
  show execAdcTrig raw s = .next t ↔ _
  unfold execAdcTrig
  split
  · next h => exact ⟨fun e => ⟨h, by cases e; rfl⟩, fun e => by rw [e.2]⟩
  · next h => exact ⟨nofun, fun e => absurd e.1 h⟩

/-- The fetch takes the first input, or nothing when the stimulus has ended. -/
theorem fetch_cases (s : State) :
    (s.stim = [] ∧ fetch s = none) ∨
    (∃ inp rest, s.stim = inp :: rest ∧
      fetch s = some ⟨decode s.cfg (sampledWord s inp), inp.boundary, { s with stim := rest }⟩) := by
  unfold fetch
  cases h : s.stim with
  | nil => exact .inl ⟨rfl, rfl⟩
  | cons inp rest => exact .inr ⟨inp, rest, rfl, rfl⟩

/-- The latch keeps its value, takes `DUTY`, or takes one of two free values (rule R152, log 7). -/
theorem nextModAct_cases (i : Instr) (b : Bool) (s : State) :
    (b = false ∧ nextModAct i b s = s.modAct) ∨
    (b = true ∧ writesDuty i = true ∧ nextModAct i b s = Config.coincidentDuty s.stepNo) ∨
    (b = true ∧ writesDuty i = false ∧ s.committed = false ∧ nextModAct i b s = Config.latchBeforeCommit s.stepNo) ∨
    (b = true ∧ writesDuty i = false ∧ s.committed = true ∧ nextModAct i b s = s.duty) := by
  unfold nextModAct
  cases b <;> cases writesDuty i <;> cases s.committed <;> simp

/-- Of the event operations RESET forgets the COMMITs, COMMIT is one, and the others leave the note (log 7). -/
theorem nextCommitted_event {i : Instr} (h : i.isEvent = true) (s : State) :
    nextCommitted i s = if i = .reset then false else if i = .commit then true else s.committed := by
  cases i <;> first | rfl | cases h

/-- A step that answers a next state ran nothing, or the operation of the first event word. -/
theorem step_next_cases {s t : State} (h : step s = .next t) :
    (s.stim = [] ∧ t = s) ∨
    (∃ inp rest u, s.stim = inp :: rest ∧ exec (decode s.cfg (sampledWord s inp)) { s with stim := rest } = .next u ∧
      t = finishStep (decode s.cfg (sampledWord s inp)) inp.boundary u) := by
  unfold step at h
  rcases fetch_cases s with ⟨hs, hf⟩ | ⟨inp, rest, hs, hf⟩
  · rw [hf] at h
    cases h
    exact .inl ⟨hs, rfl⟩
  · rw [hf] at h
    dsimp only at h
    split at h <;> cases h
    exact .inr ⟨inp, rest, _, hs, by assumption, rfl⟩

/-- A run of `k + 1` steps is a step and a run of `k` steps. -/
theorem run_next {M : Host.Core} {s u : M.State} (h : M.step s = .next u) (k : Nat) :
    Host.Core.run M (k + 1) s = Host.Core.run M k u := by
  simp [Host.Core.run, h]

end Sys2Proof.Machine
end

