-- ==== Sys2Proof/Laws/PerInstr.lean ====
section
/-! SUPPORT. The family EncodeDomain: which operations have an event word (`30_encoding.md` rules R61, R68, R69). -/

namespace Sys2Proof.Laws

/-- The encoder gives a word exactly to a well-formed operation that an event word selects. -/
def EncodeDomain.Statement (i : Instr) : Prop :=
  ∀ cfg : Config, (encode cfg i).isSome = (i.isEvent && i.wf cfg)

theorem EncodeDomain.reset : EncodeDomain.Statement (.reset) := fun _ => rfl

theorem EncodeDomain.idle : EncodeDomain.Statement (.idle) := fun _ => rfl

theorem EncodeDomain.sample (raw : Int) : EncodeDomain.Statement (.sample raw) := by
  intro cfg
  by_cases h : cfg.FitsRaw raw
  · simp only [encode, Instr.isEvent, Instr.wf, if_pos h, decide_eq_true h]; rfl
  · simp only [encode, Instr.isEvent, Instr.wf, if_neg h, decide_eq_false h]; rfl

theorem EncodeDomain.commit : EncodeDomain.Statement (.commit) := fun _ => rfl

theorem EncodeDomain.both : EncodeDomain.Statement (.both) := fun _ => rfl

theorem EncodeDomain.adcTrig (raw : Int) : EncodeDomain.Statement (.adcTrig raw) := fun _ => rfl

theorem EncodeDomain.dcbShift : EncodeDomain.Statement (.dcbShift) := fun _ => rfl

theorem EncodeDomain.dcbAcc : EncodeDomain.Statement (.dcbAcc) := fun _ => rfl

theorem EncodeDomain.dcbLeak : EncodeDomain.Statement (.dcbLeak) := fun _ => rfl

theorem EncodeDomain.dcbNarrow : EncodeDomain.Statement (.dcbNarrow) := fun _ => rfl

theorem EncodeDomain.fifoPush : EncodeDomain.Statement (.fifoPush) := fun _ => rfl

theorem EncodeDomain.choAddrA : EncodeDomain.Statement (.choAddrA) := fun _ => rfl

theorem EncodeDomain.choAddrB : EncodeDomain.Statement (.choAddrB) := fun _ => rfl

theorem EncodeDomain.choAddrC : EncodeDomain.Statement (.choAddrC) := fun _ => rfl

theorem EncodeDomain.choAddrD : EncodeDomain.Statement (.choAddrD) := fun _ => rfl

theorem EncodeDomain.fifoTap (tap : Tap) : EncodeDomain.Statement (.fifoTap tap) := fun _ => rfl

theorem EncodeDomain.choSum : EncodeDomain.Statement (.choSum) := fun _ => rfl

theorem EncodeDomain.choSat : EncodeDomain.Statement (.choSat) := fun _ => rfl

theorem EncodeDomain.outBias : EncodeDomain.Statement (.outBias) := fun _ => rfl

theorem EncodeDomain.outPend : EncodeDomain.Statement (.outPend) := fun _ => rfl

theorem EncodeDomain.lfoStep : EncodeDomain.Statement (.lfoStep) := fun _ => rfl

theorem EncodeDomain.fifoAdv : EncodeDomain.Statement (.fifoAdv) := fun _ => rfl

theorem EncodeDomain.outCommit : EncodeDomain.Statement (.outCommit) := fun _ => rfl

end Sys2Proof.Laws
end

