-- ==== Sys2Proof/Laws/Sample.lean ====
section
/-! SUPPORT. What each phase of SAMPLE (`43_sample_cycle.md` rule R119) does to each field, and the values it forms. -/

namespace Sys2Proof.Machine

@[simp] theorem adcTrig_cfg (raw : Int) (s : State) : (adcTrig raw s).cfg = s.cfg := by simp [adcTrig]
@[simp] theorem adcTrig_xCur (raw : Int) (s : State) : readXCur (adcTrig raw s) = readXCur s := by simp [adcTrig]
@[simp] theorem adcTrig_xPrev (raw : Int) (s : State) : readXPrev (adcTrig raw s) = readXPrev s := by simp [adcTrig]
@[simp] theorem adcTrig_y (raw : Int) (s : State) : readY (adcTrig raw s) = readY s := by simp [adcTrig]
@[simp] theorem adcTrig_buf (raw : Int) (s : State) : (adcTrig raw s).buf = s.buf := by simp [adcTrig]
@[simp] theorem adcTrig_idx (raw : Int) (s : State) : (adcTrig raw s).idx = s.idx := by simp [adcTrig]
@[simp] theorem adcTrig_d (raw : Int) (s : State) : (adcTrig raw s).d = s.d := by simp [adcTrig]
@[simp] theorem adcTrig_sub (raw : Int) (s : State) : (adcTrig raw s).sub = s.sub := by simp [adcTrig]
@[simp] theorem adcTrig_pend (raw : Int) (s : State) : (adcTrig raw s).pend = s.pend := by simp [adcTrig]
@[simp] theorem adcTrig_duty (raw : Int) (s : State) : (adcTrig raw s).duty = s.duty := by simp [adcTrig]
@[simp] theorem adcTrig_modAct (raw : Int) (s : State) : (adcTrig raw s).modAct = s.modAct := by simp [adcTrig]
@[simp] theorem adcTrig_committed (raw : Int) (s : State) : (adcTrig raw s).committed = s.committed := by simp [adcTrig]
@[simp] theorem adcTrig_adcStart (raw : Int) (s : State) : (adcTrig raw s).adcStart = true := by simp [adcTrig]
@[simp] theorem adcTrig_ph (raw : Int) (s : State) : (adcTrig raw s).ph = s.ph := by simp [adcTrig]
@[simp] theorem adcTrig_faults (raw : Int) (s : State) : (adcTrig raw s).faults = s.faults := by simp [adcTrig]
@[simp] theorem adcTrig_trace (raw : Int) (s : State) : (adcTrig raw s).trace = s.trace ++ [.adcStart] := by simp [adcTrig]
@[simp] theorem adcTrig_stepNo (raw : Int) (s : State) : (adcTrig raw s).stepNo = s.stepNo := by simp [adcTrig]
@[simp] theorem adcTrig_stim (raw : Int) (s : State) : (adcTrig raw s).stim = s.stim := by simp [adcTrig]
@[simp] theorem adcTrig_tmp (raw : Int) (s : State) : (adcTrig raw s).tmp = { s.tmp with raw := raw } := by simp [adcTrig]
@[simp] theorem adcTrig_memRead (raw : Int) (s : State) (a : Slot) : memRead (adcTrig raw s) a = memRead s a := by simp [adcTrig]

@[simp] theorem runFilter_cfg (s : State) : (runFilter s).cfg = s.cfg := by simp [runFilter, dcbNarrow, dcbAcc]
@[simp] theorem runFilter_xCur (s : State) : readXCur (runFilter s) = wrap s.cfg.rawW s.tmp.raw := by simp [runFilter, dcbNarrow, dcbAcc]
@[simp] theorem runFilter_xPrev (s : State) : readXPrev (runFilter s) = readXCur s := by simp [runFilter, dcbNarrow, dcbAcc]
@[simp] theorem runFilter_y (s : State) : readY (runFilter s) = 
    wrap s.cfg.accW (wrap s.cfg.accW (readY s + (wrap s.cfg.rawW s.tmp.raw - readXCur s)) -
      asr (wrap s.cfg.accW (readY s + (wrap s.cfg.rawW s.tmp.raw - readXCur s))) s.cfg.leakShift) := by simp [runFilter, dcbNarrow, dcbAcc]
@[simp] theorem runFilter_buf (s : State) : (runFilter s).buf = s.buf := by simp [runFilter, dcbNarrow, dcbAcc]
@[simp] theorem runFilter_idx (s : State) : (runFilter s).idx = s.idx := by simp [runFilter, dcbNarrow, dcbAcc]
@[simp] theorem runFilter_d (s : State) : (runFilter s).d = s.d := by simp [runFilter, dcbNarrow, dcbAcc]
@[simp] theorem runFilter_sub (s : State) : (runFilter s).sub = s.sub := by simp [runFilter, dcbNarrow, dcbAcc]
@[simp] theorem runFilter_pend (s : State) : (runFilter s).pend = s.pend := by simp [runFilter, dcbNarrow, dcbAcc]
@[simp] theorem runFilter_duty (s : State) : (runFilter s).duty = s.duty := by simp [runFilter, dcbNarrow, dcbAcc]
@[simp] theorem runFilter_modAct (s : State) : (runFilter s).modAct = s.modAct := by simp [runFilter, dcbNarrow, dcbAcc]
@[simp] theorem runFilter_committed (s : State) : (runFilter s).committed = s.committed := by simp [runFilter, dcbNarrow, dcbAcc]
@[simp] theorem runFilter_adcStart (s : State) : (runFilter s).adcStart = s.adcStart := by simp [runFilter, dcbNarrow, dcbAcc]
@[simp] theorem runFilter_ph (s : State) : (runFilter s).ph = s.ph := by simp [runFilter, dcbNarrow, dcbAcc]
@[simp] theorem runFilter_faults (s : State) : (runFilter s).faults = s.faults := by simp [runFilter, dcbNarrow, dcbAcc]
@[simp] theorem runFilter_trace (s : State) : (runFilter s).trace = s.trace := by simp [runFilter, dcbNarrow, dcbAcc]
@[simp] theorem runFilter_stepNo (s : State) : (runFilter s).stepNo = s.stepNo := by simp [runFilter, dcbNarrow, dcbAcc]
@[simp] theorem runFilter_stim (s : State) : (runFilter s).stim = s.stim := by simp [runFilter, dcbNarrow, dcbAcc]
@[simp] theorem runFilter_memRead (s : State) (a : Slot) : memRead (runFilter s) a = memRead s a := by simp [runFilter, dcbNarrow, dcbAcc]

@[simp] theorem runFilter_v (s : State) : (runFilter s).tmp.v = sat127 (readY (runFilter s)) := by
  simp [runFilter, dcbNarrow]

@[simp] theorem readTaps_cfg (s : State) : (readTaps s).cfg = s.cfg := by simp [readTaps, fifoTap, choAddrA, choAddrB, choAddrC, choAddrD]
@[simp] theorem readTaps_xCur (s : State) : readXCur (readTaps s) = readXCur s := by simp [readTaps, fifoTap, choAddrA, choAddrB, choAddrC, choAddrD]
@[simp] theorem readTaps_xPrev (s : State) : readXPrev (readTaps s) = readXPrev s := by simp [readTaps, fifoTap, choAddrA, choAddrB, choAddrC, choAddrD]
@[simp] theorem readTaps_y (s : State) : readY (readTaps s) = readY s := by simp [readTaps, fifoTap, choAddrA, choAddrB, choAddrC, choAddrD]
@[simp] theorem readTaps_buf (s : State) : (readTaps s).buf = s.buf := by simp [readTaps, fifoTap, choAddrA, choAddrB, choAddrC, choAddrD]
@[simp] theorem readTaps_idx (s : State) : (readTaps s).idx = s.idx := by simp [readTaps, fifoTap, choAddrA, choAddrB, choAddrC, choAddrD]
@[simp] theorem readTaps_d (s : State) : (readTaps s).d = s.d := by simp [readTaps, fifoTap, choAddrA, choAddrB, choAddrC, choAddrD]
@[simp] theorem readTaps_sub (s : State) : (readTaps s).sub = s.sub := by simp [readTaps, fifoTap, choAddrA, choAddrB, choAddrC, choAddrD]
@[simp] theorem readTaps_pend (s : State) : (readTaps s).pend = s.pend := by simp [readTaps, fifoTap, choAddrA, choAddrB, choAddrC, choAddrD]
@[simp] theorem readTaps_duty (s : State) : (readTaps s).duty = s.duty := by simp [readTaps, fifoTap, choAddrA, choAddrB, choAddrC, choAddrD]
@[simp] theorem readTaps_modAct (s : State) : (readTaps s).modAct = s.modAct := by simp [readTaps, fifoTap, choAddrA, choAddrB, choAddrC, choAddrD]
@[simp] theorem readTaps_committed (s : State) : (readTaps s).committed = s.committed := by simp [readTaps, fifoTap, choAddrA, choAddrB, choAddrC, choAddrD]
@[simp] theorem readTaps_adcStart (s : State) : (readTaps s).adcStart = s.adcStart := by simp [readTaps, fifoTap, choAddrA, choAddrB, choAddrC, choAddrD]
@[simp] theorem readTaps_ph (s : State) : (readTaps s).ph = s.ph := by simp [readTaps, fifoTap, choAddrA, choAddrB, choAddrC, choAddrD]
@[simp] theorem readTaps_faults (s : State) : (readTaps s).faults = s.faults := by simp [readTaps, fifoTap, choAddrA, choAddrB, choAddrC, choAddrD]
@[simp] theorem readTaps_trace (s : State) : (readTaps s).trace = s.trace := by simp [readTaps, fifoTap, choAddrA, choAddrB, choAddrC, choAddrD]
@[simp] theorem readTaps_stepNo (s : State) : (readTaps s).stepNo = s.stepNo := by simp [readTaps, fifoTap, choAddrA, choAddrB, choAddrC, choAddrD]
@[simp] theorem readTaps_stim (s : State) : (readTaps s).stim = s.stim := by simp [readTaps, fifoTap, choAddrA, choAddrB, choAddrC, choAddrD]
@[simp] theorem readTaps_memRead (s : State) (a : Slot) : memRead (readTaps s) a = memRead s a := by simp [readTaps, fifoTap, choAddrA, choAddrB, choAddrC, choAddrD]

@[simp] theorem readTaps_tapA (s : State) :
    (readTaps s).tmp.tapA = memRead s (indexPlus s.idx (zext s.d)) := by
  simp [readTaps, fifoTap, choAddrA, choAddrB, choAddrC, choAddrD, withTap, tapAddress]

@[simp] theorem readTaps_tapB (s : State) :
    (readTaps s).tmp.tapB = memRead s (indexPlus s.idx (-zext s.d + 1)) := by
  simp [readTaps, fifoTap, choAddrA, choAddrB, choAddrC, choAddrD, withTap, tapAddress]

@[simp] theorem readTaps_tapC (s : State) :
    (readTaps s).tmp.tapC = memRead s (indexPlus s.idx (zext s.d + 64)) := by
  simp [readTaps, fifoTap, choAddrA, choAddrB, choAddrC, choAddrD, withTap, tapAddress, Config.half]

@[simp] theorem readTaps_tapD (s : State) :
    (readTaps s).tmp.tapD = memRead s (indexPlus s.idx (-zext s.d + 1 + 64)) := by
  simp [readTaps, fifoTap, choAddrA, choAddrB, choAddrC, choAddrD, withTap, tapAddress, Config.half]

@[simp] theorem formOutput_cfg (s : State) : (formOutput s).cfg = s.cfg := by simp [formOutput, outBias, choSat, choSum]
@[simp] theorem formOutput_xCur (s : State) : readXCur (formOutput s) = readXCur s := by simp [formOutput, outBias, choSat, choSum]
@[simp] theorem formOutput_xPrev (s : State) : readXPrev (formOutput s) = readXPrev s := by simp [formOutput, outBias, choSat, choSum]
@[simp] theorem formOutput_y (s : State) : readY (formOutput s) = readY s := by simp [formOutput, outBias, choSat, choSum]
@[simp] theorem formOutput_buf (s : State) : (formOutput s).buf = s.buf := by simp [formOutput, outBias, choSat, choSum]
@[simp] theorem formOutput_idx (s : State) : (formOutput s).idx = s.idx := by simp [formOutput, outBias, choSat, choSum]
@[simp] theorem formOutput_d (s : State) : (formOutput s).d = s.d := by simp [formOutput, outBias, choSat, choSum]
@[simp] theorem formOutput_sub (s : State) : (formOutput s).sub = s.sub := by simp [formOutput, outBias, choSat, choSum]
@[simp] theorem formOutput_pend (s : State) : (formOutput s).pend = field 8 (bias128 (sat127
    (s.tmp.tapA + s.tmp.tapB + s.tmp.tapC + s.tmp.tapD))) := by simp [formOutput, outBias, choSat, choSum]
@[simp] theorem formOutput_duty (s : State) : (formOutput s).duty = s.duty := by simp [formOutput, outBias, choSat, choSum]
@[simp] theorem formOutput_modAct (s : State) : (formOutput s).modAct = s.modAct := by simp [formOutput, outBias, choSat, choSum]
@[simp] theorem formOutput_committed (s : State) : (formOutput s).committed = s.committed := by simp [formOutput, outBias, choSat, choSum]
@[simp] theorem formOutput_adcStart (s : State) : (formOutput s).adcStart = s.adcStart := by simp [formOutput, outBias, choSat, choSum]
@[simp] theorem formOutput_ph (s : State) : (formOutput s).ph = s.ph := by simp [formOutput, outBias, choSat, choSum]
@[simp] theorem formOutput_faults (s : State) : (formOutput s).faults = s.faults := by simp [formOutput, outBias, choSat, choSum]
@[simp] theorem formOutput_trace (s : State) : (formOutput s).trace = s.trace := by simp [formOutput, outBias, choSat, choSum]
@[simp] theorem formOutput_stepNo (s : State) : (formOutput s).stepNo = s.stepNo := by simp [formOutput, outBias, choSat, choSum]
@[simp] theorem formOutput_stim (s : State) : (formOutput s).stim = s.stim := by simp [formOutput, outBias, choSat, choSum]
@[simp] theorem formOutput_memRead (s : State) (a : Slot) : memRead (formOutput s) a = memRead s a := by simp [formOutput, outBias, choSat, choSum]

@[simp] theorem monitorSample_cfg (s : State) : (monitorSample s).cfg = s.cfg := by simp [monitorSample]
@[simp] theorem monitorSample_xCur (s : State) : readXCur (monitorSample s) = readXCur s := by simp [monitorSample]
@[simp] theorem monitorSample_xPrev (s : State) : readXPrev (monitorSample s) = readXPrev s := by simp [monitorSample]
@[simp] theorem monitorSample_y (s : State) : readY (monitorSample s) = readY s := by simp [monitorSample]
@[simp] theorem monitorSample_buf (s : State) : (monitorSample s).buf = s.buf := by simp [monitorSample]
@[simp] theorem monitorSample_idx (s : State) : (monitorSample s).idx = s.idx := by simp [monitorSample]
@[simp] theorem monitorSample_d (s : State) : (monitorSample s).d = s.d := by simp [monitorSample]
@[simp] theorem monitorSample_sub (s : State) : (monitorSample s).sub = s.sub := by simp [monitorSample]
@[simp] theorem monitorSample_pend (s : State) : (monitorSample s).pend = s.pend := by simp [monitorSample]
@[simp] theorem monitorSample_duty (s : State) : (monitorSample s).duty = s.duty := by simp [monitorSample]
@[simp] theorem monitorSample_modAct (s : State) : (monitorSample s).modAct = s.modAct := by simp [monitorSample]
@[simp] theorem monitorSample_committed (s : State) : (monitorSample s).committed = s.committed := by simp [monitorSample]
@[simp] theorem monitorSample_adcStart (s : State) : (monitorSample s).adcStart = s.adcStart := by simp [monitorSample]
@[simp] theorem monitorSample_ph (s : State) : (monitorSample s).ph = .waitCommit := by simp [monitorSample]
@[simp] theorem monitorSample_faults (s : State) : (monitorSample s).faults = 
    s.faults ++ (if s.ph = .waitCommit then [⟨s.stepNo, .sampleAfterSample⟩] else []) := by
  simp only [monitorSample, setPhase_faults, raiseOrderIf_faults]
  by_cases h : s.ph = .waitCommit <;> simp [h]
@[simp] theorem monitorSample_trace (s : State) : (monitorSample s).trace = s.trace := by simp [monitorSample]
@[simp] theorem monitorSample_stepNo (s : State) : (monitorSample s).stepNo = s.stepNo := by simp [monitorSample]
@[simp] theorem monitorSample_stim (s : State) : (monitorSample s).stim = s.stim := by simp [monitorSample]
@[simp] theorem monitorSample_tmp (s : State) : (monitorSample s).tmp = s.tmp := by simp [monitorSample]
@[simp] theorem monitorSample_memRead (s : State) (a : Slot) : memRead (monitorSample s) a = memRead s a := by simp [monitorSample]

@[simp] theorem monitorCommit_cfg (s : State) : (monitorCommit s).cfg = s.cfg := by simp [monitorCommit]
@[simp] theorem monitorCommit_xCur (s : State) : readXCur (monitorCommit s) = readXCur s := by simp [monitorCommit]
@[simp] theorem monitorCommit_xPrev (s : State) : readXPrev (monitorCommit s) = readXPrev s := by simp [monitorCommit]
@[simp] theorem monitorCommit_y (s : State) : readY (monitorCommit s) = readY s := by simp [monitorCommit]
@[simp] theorem monitorCommit_buf (s : State) : (monitorCommit s).buf = s.buf := by simp [monitorCommit]
@[simp] theorem monitorCommit_idx (s : State) : (monitorCommit s).idx = s.idx := by simp [monitorCommit]
@[simp] theorem monitorCommit_d (s : State) : (monitorCommit s).d = s.d := by simp [monitorCommit]
@[simp] theorem monitorCommit_sub (s : State) : (monitorCommit s).sub = s.sub := by simp [monitorCommit]
@[simp] theorem monitorCommit_pend (s : State) : (monitorCommit s).pend = s.pend := by simp [monitorCommit]
@[simp] theorem monitorCommit_duty (s : State) : (monitorCommit s).duty = s.duty := by simp [monitorCommit]
@[simp] theorem monitorCommit_modAct (s : State) : (monitorCommit s).modAct = s.modAct := by simp [monitorCommit]
@[simp] theorem monitorCommit_committed (s : State) : (monitorCommit s).committed = s.committed := by simp [monitorCommit]
@[simp] theorem monitorCommit_adcStart (s : State) : (monitorCommit s).adcStart = s.adcStart := by simp [monitorCommit]
@[simp] theorem monitorCommit_ph (s : State) : (monitorCommit s).ph = .waitSample := by simp [monitorCommit]
@[simp] theorem monitorCommit_faults (s : State) : (monitorCommit s).faults = 
    s.faults ++ (if s.ph = .waitSample then [⟨s.stepNo, .commitWithoutSample⟩] else []) := by
  simp only [monitorCommit, setPhase_faults, raiseOrderIf_faults]
  by_cases h : s.ph = .waitSample <;> simp [h]
@[simp] theorem monitorCommit_trace (s : State) : (monitorCommit s).trace = s.trace := by simp [monitorCommit]
@[simp] theorem monitorCommit_stepNo (s : State) : (monitorCommit s).stepNo = s.stepNo := by simp [monitorCommit]
@[simp] theorem monitorCommit_stim (s : State) : (monitorCommit s).stim = s.stim := by simp [monitorCommit]
@[simp] theorem monitorCommit_tmp (s : State) : (monitorCommit s).tmp = s.tmp := by simp [monitorCommit]
@[simp] theorem monitorCommit_memRead (s : State) (a : Slot) : memRead (monitorCommit s) a = memRead s a := by simp [monitorCommit]

end Sys2Proof.Machine
end

