-- ==== Sys2Proof/Tests/Slice0.lean ====
section
/-! SUPPORT. Tests: ill-formed operations refused, words written out from the spec's encoding, single steps whose
expected values stand in `95_test_vectors.md`, and a witness for the hypotheses of each statement. -/

namespace Sys2Proof.Tests

open Sys2Proof.Machine

/-- Read something off the next state of an outcome. -/
def next? {α : Type} (o : Host.Outcome State Fault Refusal) (f : State → α) : Option α :=
  match o with
  | .next t => some (f t)
  | .fault _ => none
  | .refused _ => none

/-- The reset state with these event words presented. -/
def presented (ws : List Nat) : State := { State.reset with stim := ws.map (fun w => ⟨w, false⟩) }

/-- The reset state with this filter output and last reading. -/
def filterAt (y x : Int) : State := { State.reset with y := field 16 y, xCur := field 8 x }

/-- The reset state with this index and delay offset. -/
def tapsAt (idx d : Nat) : State := { State.reset with idx := BitVec.ofNat 7 idx, d := BitVec.ofNat 6 d }

/-- The reset state with these temporaries. -/
def withTmp (m : Temps) : State := { State.reset with tmp := m }

/-- The reset state with one entry of the history FIFO set. -/
def withEntry (a : Nat) (b : Byte) : State := { State.reset with buf := [(a, b)] }

/-- Reference values, but for `CHORUS_PERIOD`. -/
def period4 : Config := ⟨8, 16, 4, 4, by decide⟩

/-- Reference values, but for `RAW_W`. -/
def wide : Config := ⟨10, 16, 4, 64, by decide⟩

/-! ## Well-formedness -/

theorem test_wf_sample_bounds : Instr.wf Config.reference (.sample 127) = true ∧
    Instr.wf Config.reference (.sample (-128)) = true := by decide
theorem test_wf_refuses_sample_above : Instr.wf Config.reference (.sample 128) = false := by decide
theorem test_wf_refuses_sample_below : Instr.wf Config.reference (.sample (-129)) = false := by decide
theorem test_wf_refuses_adcTrig_above : Instr.wf Config.reference (.adcTrig 128) = false := by decide
theorem test_wf_refuses_adcTrig_below : Instr.wf Config.reference (.adcTrig (-129)) = false := by decide
theorem test_wf_depends_on_width : Instr.wf wide (.sample 511) = true ∧ Instr.wf wide (.sample 512) = false := by decide
theorem test_illegal_configurations : ¬ Config.Legal 1 16 4 64 ∧ ¬ Config.Legal 16 32 4 64 ∧ ¬ Config.Legal 8 8 4 64 ∧
    ¬ Config.Legal 8 33 4 64 ∧ ¬ Config.Legal 8 16 16 64 ∧ ¬ Config.Legal 8 16 4 0 ∧ ¬ Config.Legal 8 16 4 65 := by decide

/-! ## Decoding (V-ENC; bits `rst c s raw` of rule R61) -/

theorem test_decode_reset : decodeTableWord 16 0b1_0_0_00000000 = some .reset := by decide
theorem test_decode_reset_outranks : decodeTableWord 16 0x7FF = some .reset ∧ decodeTableWord 16 0x6A5 = some .reset := by
  decide
theorem test_decode_idle : decodeTableWord 16 0b0_0_0_00000000 = some .idle ∧ decodeTableWord 16 0x0FF = some .idle := by
  decide
theorem test_decode_commit : decodeTableWord 16 0b0_1_0_00000000 = some .commit ∧
    decodeTableWord 16 0x2D8 = some .commit := by decide
theorem test_decode_sample_positive : decodeTableWord 16 0b0_0_1_00001010 = some (.sample 10) ∧
    decodeTableWord 16 0x17F = some (.sample 127) := by decide
theorem test_decode_sample_negative : decodeTableWord 16 0b0_0_1_11011000 = some (.sample (-40)) ∧
    decodeTableWord 16 0x180 = some (.sample (-128)) ∧ decodeTableWord 16 0x1FF = some (.sample (-1)) := by decide
theorem test_decode_both : decodeTableWord 16 0b0_1_1_00000000 = some .both ∧ decodeTableWord 16 0x3FF = some .both := by
  decide
theorem test_decode_refuses_wide_word : decodeNumber Config.reference 0x800 = .error .widerThanEventWord := by decide
theorem test_decode_bytes_low_first : decodeBytes Config.reference [0x0A#8, 0x01#8] = .ok (.sample 10) := by decide
theorem test_decode_width_10 : decodeNumber wide 0x1000 = .ok .reset ∧ decodeNumber wide 0x0800 = .ok .commit ∧
    decodeNumber wide 0x07FF = .ok (.sample (-1)) ∧ decodeNumber wide 0x05FF = .ok (.sample 511) ∧
    decodeNumber wide 0x0C00 = .ok .both := by decide
theorem test_encode_canonical : (encode Config.reference .reset).map BitVec.toNat = some 0x400 ∧
    (encode Config.reference .commit).map BitVec.toNat = some 0x200 ∧
    (encode Config.reference (.sample (-40))).map BitVec.toNat = some 0x1D8 := by decide
theorem test_micro_operations_have_no_word : encode Config.reference (.adcTrig 0) = none ∧
    encode Config.reference .dcbShift = none ∧ encode Config.reference .dcbAcc = none ∧
    encode Config.reference .dcbLeak = none ∧ encode Config.reference .dcbNarrow = none ∧
    encode Config.reference .fifoPush = none ∧ encode Config.reference .choAddrA = none ∧
    encode Config.reference .choAddrB = none ∧ encode Config.reference .choAddrC = none ∧
    encode Config.reference .choAddrD = none ∧ encode Config.reference (.fifoTap .A) = none ∧
    encode Config.reference .choSum = none ∧ encode Config.reference .choSat = none ∧
    encode Config.reference .outBias = none ∧ encode Config.reference .outPend = none ∧
    encode Config.reference .lfoStep = none ∧ encode Config.reference .fifoAdv = none ∧
    encode Config.reference .outCommit = none := by decide

/-! ## Assembling (rules R69, R70) -/

theorem test_assemble_p1 :
    assemble Config.reference "RESET ; start\nPERIOD 10\n" = .ok [0x400#11, 0x10A#11, 0x200#11] := by decide
theorem test_assemble_run : assemble Config.reference "RUN 2, -128" = .ok [0x180#11, 0x200#11, 0x180#11, 0x200#11] := by
  decide
theorem test_assemble_refuses_line : assemble Config.reference "IDLE\nSAMPLE 128" = .error 2 := by decide
theorem test_assemble_hex : assemble Config.reference "SAMPLE 0xD8\nBOTH -1\nWAIT 1" = .ok [0x1D8#11, 0x3FF#11, 0x000#11] := by
  decide

/-! ## Primitives (V-PRIM) -/

theorem test_wrap : [32767, 32768, -32768, -32769, 65535].map (wrap 16) = [32767, -32768, -32768, 32767, -1] := by decide
theorem test_asr : [255, 16, 15, 1, 0, -1, -15, -16, -17, -42, -240].map (fun i => asr i 4) =
    [15, 1, 0, 0, 0, -1, -1, -1, -2, -3, -15] := by decide
theorem test_mod128 : [0, 127, 128, 190, 254, -1, -62, -128].map mod128 = [0, 127, 0, 62, 126, 127, 66, 0] := by decide
theorem test_bias128 : [-127, -39, -1, 0, 38, 127].map bias128 = [1, 89, 127, 128, 166, 255] := by decide

/-! ## Micro-operations -/

theorem test_adcTrig : next? (exec (.adcTrig (-40)) State.reset) (fun t => (t.adcStart, t.trace, t.tmp.raw, readXCur t)) =
    some (true, [.adcStart], -40, 0) := by decide
theorem test_dcbShift : next? (exec .dcbShift { filterAt 0 40 with tmp := { Temps.clear with raw := -40 } })
    (fun t => (readXCur t, readXPrev t)) = some (-40, 40) := by decide
theorem test_dcbAcc : next? (exec .dcbAcc { filterAt 15 (-128) with xPrev := 127#8 }) (fun t => (t.tmp.t, readY t)) =
    some (-240, 15) := by decide
theorem test_dcbLeak : next? (exec .dcbLeak (withTmp { Temps.clear with t := -42 })) readY = some (-39) := by decide
theorem test_dcbNarrow : next? (exec .dcbNarrow (filterAt 240 0)) (fun t => (t.tmp.v, readY t)) = some (127, 240) := by
  decide
theorem test_fifoPush : next? (exec .fifoPush { withTmp { Temps.clear with v := -39 } with idx := 5 })
    (fun t => (t.buf, t.idx)) = some ([(5, 0xD9#8)], 5) := by decide
theorem test_fifoTap_negative : next? (exec (.fifoTap .B) { withEntry 3 0x81 with tmp := { Temps.clear with addrB := 3 } })
    (fun t => (t.tmp.tapA, t.tmp.tapB, t.tmp.tapC, t.tmp.tapD)) = some (0, -127, 0, 0) := by decide
theorem test_fifoTap_lowest : next? (exec (.fifoTap .D) { withEntry 3 0x80 with tmp := { Temps.clear with addrD := 3 } })
    (fun t => t.tmp.tapD) = some (-128) := by decide
theorem test_fifoAdv_wraps : next? (exec .fifoAdv (tapsAt 127 0)) (fun t => t.idx) = some 0 := by decide
theorem test_choAddrA : next? (exec .choAddrA (tapsAt 120 10)) (fun t => t.tmp.addrA) = some 2 := by decide
theorem test_choAddrB : next? (exec .choAddrB (tapsAt 0 63)) (fun t => t.tmp.addrB) = some 66 := by decide
theorem test_choAddrC : next? (exec .choAddrC (tapsAt 64 32)) (fun t => t.tmp.addrC) = some 32 := by decide
theorem test_choAddrD : next? (exec .choAddrD (tapsAt 127 63)) (fun t => t.tmp.addrD) = some 1 := by decide
theorem test_choSum : next? (exec .choSum (withTmp { Temps.clear with tapA := 127, tapB := 127, tapC := -127, tapD := 1 }))
    (fun t => t.tmp.s) = some 128 := by decide
theorem test_choSat_positive : next? (exec .choSat (withTmp { Temps.clear with s := 130 })) (fun t => t.tmp.c) =
    some 127 := by decide
theorem test_choSat_negative : next? (exec .choSat (withTmp { Temps.clear with s := -128 })) (fun t => t.tmp.c) =
    some (-127) := by decide
theorem test_outBias : next? (exec .outBias (withTmp { Temps.clear with c := -39 })) (fun t => t.tmp.u) = some 89 := by decide
theorem test_outPend : next? (exec .outPend (withTmp { Temps.clear with u := 89 })) (fun t => (t.pend, t.duty)) =
    some (0x59, 0x80) := by decide
theorem test_lfoStep_counts : next? (exec .lfoStep { State.resetOf period4 with d := 1, sub := 2 }) (fun t => (t.d, t.sub)) =
    some (1, 3) := by decide
theorem test_lfoStep_unreachable : next? (exec .lfoStep { State.resetOf period4 with d := 9, sub := 7 })
    (fun t => (t.d, t.sub)) = some (2, 0) := by decide
theorem test_outCommit : next? (exec .outCommit { State.reset with pend := 138 }) (fun t => (t.duty, t.trace, t.faults)) =
    some (138, [.dutyWrite 138], []) := by decide

/-! ## Event operations (V-DCB, V-OUT, V-RESET, programs S7 and P3) -/

theorem test_sample_fullScale : next? (exec (.sample (-128)) { filterAt 15 127 with idx := 41 })
    (fun t => (readY t, memRead t 41, t.pend, t.idx)) = some (-225, -127, 1, 42) := by decide
theorem test_sample_readsPushed : next? (exec (.sample 20) { filterAt (-39) (-40) with d := 1 })
    (fun t => (readY t, t.pend, t.sub, readXPrev t)) = some (20, 148, 1, -40) := by decide
theorem test_commit : next? (exec .commit { State.reset with pend := 138, ph := .waitCommit })
    (fun t => (t.duty, t.ph, t.faults, t.trace)) = some (138, .waitSample, [], [.dutyWrite 138]) := by decide
theorem test_commit_without_sample : next? (exec .commit State.reset) (fun t => (t.duty, t.faults)) =
    some (0x80, [⟨0, .commitWithoutSample⟩]) := by decide
theorem test_reset : next? (exec .reset { filterAt 240 127 with pend := 255, duty := 1, buf := [(43, 127)], idx := 44 })
    (fun t => (readY t, t.buf, t.idx, t.pend, t.duty)) = some (0, [], 0, 0x80, 0x80) := by decide
theorem test_idle : next? (exec .idle { State.reset with pend := 255, duty := 1, adcStart := true })
    (fun t => (t.pend, t.duty, t.adcStart)) = some (255, 1, false) := by decide
theorem test_both : exec .both { State.reset with stepNo := 5 } = .fault (.simul 5) := rfl
theorem test_step_counts : next? (step (presented [0x10A, 0x200])) (fun t => (t.pend, t.stepNo, t.stim)) =
    some (138, 1, [⟨0x200, false⟩]) := by decide
theorem test_withFetchWord : next? (step ((presented [0x200]).withFetchWord 16 0x10A)) (fun t => (readY t, t.stim)) =
    some (10, []) := by decide

/-! ## Witnesses: a concrete state and operands that meet the hypotheses of each statement that has any -/

/-- An operation has a next state. -/
abbrev Runs (i : Instr) (s : State) : Prop := (next? (exec i s) (fun _ => ())).isSome = true

/-- What `Runs` says. -/
theorem runs_next {i : Instr} {s : State} (h : Runs i s) : ∃ t, exec i s = .next t := by
  unfold Runs next? at h
  split at h
  · exact ⟨_, by assumption⟩
  · cases h
  · cases h

/-- A step has a next state. -/
abbrev Steps (s : State) : Prop := (next? (step s) (fun _ => ())).isSome = true

/-- What `Steps` says. -/
theorem steps_next {s : State} (h : Steps s) : ∃ t, step s = .next t := by
  unfold Steps next? at h
  split at h
  · exact ⟨_, by assumption⟩
  · cases h
  · cases h

theorem witness_fitsRaw_ends : Config.reference.FitsRaw (-128) ∧ Config.reference.FitsRaw 127 := by decide

theorem witness_DecodeEncodeAgree : ∀ i ∈ [Instr.reset, .idle, .sample (-128), .sample 127, .commit, .both],
    i.isEvent = true ∧ i.wf Config.reference = true := by decide

theorem witness_IgnoredBitsAndCanonicalWords_reset :
    rstBit (cfg := Config.reference) 0x400#11 = true ∧ rstBit (cfg := Config.reference) 0x7FF#11 = true := by decide

theorem witness_IgnoredBitsAndCanonicalWords_commit :
    rstBit (cfg := Config.reference) 0x200#11 = false ∧ rstBit (cfg := Config.reference) 0x2D8#11 = false ∧
    commitBit (cfg := Config.reference) 0x200#11 = true ∧ commitBit (cfg := Config.reference) 0x2D8#11 = true ∧
    sampleBit (cfg := Config.reference) 0x200#11 = sampleBit (cfg := Config.reference) 0x2D8#11 := by decide

theorem witness_IgnoredBitsAndCanonicalWords_idle :
    rstBit (cfg := Config.reference) 0x000#11 = false ∧ rstBit (cfg := Config.reference) 0x0FF#11 = false ∧
    commitBit (cfg := Config.reference) 0x000#11 = commitBit (cfg := Config.reference) 0x0FF#11 ∧
    sampleBit (cfg := Config.reference) 0x000#11 = false ∧ sampleBit (cfg := Config.reference) 0x0FF#11 = false := by decide

theorem witness_MicroOperationsHaveNoWord : Instr.isEvent (.fifoTap .C) = false := rfl

theorem witness_PseudoInstructionsExpand :
    sampleOperand Config.reference (.dec 127) = some 127 ∧ sampleOperand Config.reference (.hex 0x80) = some (-128) ∧
    asmCount (.dec 0) = some 0 ∧ asmCount (.hex 2) = some 2 := by decide

theorem witness_AssemblerSpellsOneWord :
    ¬ Config.reference.FitsRaw 128 ∧ ¬ Config.reference.FitsRaw (-129) ∧ Config.reference.FitsRaw 127 ∧
    255 < 2 ^ Config.reference.rawW := by decide

theorem witness_StepRunsDecodedInstruction_next : (presented [0x10A]).stim = [⟨0x10A, false⟩] ∧
    Runs (decode Config.reference 0x10A#11) { presented [0x10A] with stim := [] } := by decide

theorem witness_StepRunsDecodedInstruction_boundary :
    next? (step { State.reset with stim := [⟨0x17F, true⟩], duty := 7, committed := true }) (fun t => t.modAct) =
      some 7 := by decide

theorem witness_StepRunsDecodedInstruction_commit :
    next? (step (presented [0x200])) (fun t => t.committed) = some true ∧
    next? (step { presented [0x400] with committed := true }) (fun t => t.committed) = some false ∧
    next? (step { presented [0x000] with committed := true }) (fun t => t.committed) = some true := by decide

/-- Before the first COMMIT a boundary leaves the free value and not `DUTY`. -/
theorem test_latch_open_before_commit :
    next? (step { State.reset with stim := [⟨0x000, true⟩] }) (fun t => t.modAct) =
      some (Config.latchBeforeCommit 0) := rfl

theorem witness_StepRunsDecodedInstruction_fault : (presented [0x300]).stim = [⟨0x300, false⟩] ∧
    exec (decode Config.reference 0x300#11) { presented [0x300] with stim := [] } = .fault (.simul 0) := ⟨rfl, rfl⟩

theorem witness_StepAtEndOfStimulus : State.reset.stim = [] := rfl

theorem witness_LatchOnlyAtBoundary_without : Steps (presented [0x200]) := by decide

theorem witness_LatchOnlyAtBoundary_with : Steps { State.reset with stim := [⟨0x100, true⟩], committed := true } ∧
    Steps { State.reset with stim := [⟨0x000, true⟩], committed := true } ∧
    decode Config.reference 0x100#11 = .sample 0 ∧ decode Config.reference 0x000#11 = .idle := by decide

theorem witness_SampleIsOneTransition_counters :
    next? (exec (.sample 127) { State.resetOf period4 with d := 3, sub := 3 }) (fun t => (t.d, t.sub)) = some (0, 0) ∧
    next? (exec (.sample 127) { State.resetOf period4 with d := 3, sub := 2 }) (fun t => (t.d, t.sub)) = some (3, 3) := by
  decide

theorem witness_SampleIsOneTransition_order : next? (exec (.sample (-128)) { State.reset with ph := .waitCommit })
    (fun t => t.faults) = some [⟨0, .sampleAfterSample⟩] := by decide

theorem witness_SampleRunsTheTable : Config.reference.FitsRaw (-128) ∧
    (next? (runOps ((sampleTable (-128)).map Prod.snd) State.reset) (fun _ => ())).isSome = true := by decide

theorem witness_OnlyOutOfRangeIsRefused : ¬ Config.reference.FitsRaw 128 ∧
    Instr.wf Config.reference (.adcTrig 127) = true ∧ ¬ Config.Legal 1 16 4 64 ∧ ¬ Config.Legal 8 16 4 65 := by decide

theorem witness_ResetFromEveryState : rstBit (cfg := Config.reference) 0x7FF#11 = true ∧
    Runs .reset { filterAt 240 127 with ph := .waitCommit } := by decide

theorem witness_CommitIsIdempotentOnHardware :
    ∃ t u, exec .commit State.reset = .next t ∧ exec .commit t = .next u := ⟨_, _, rfl, rfl⟩

theorem witness_BothEventsStopTheRun : (presented [0x3FF]).stim = [⟨0x3FF, false⟩] ∧
    rstBit (cfg := Config.reference) 0x3FF#11 = false ∧ commitBit (cfg := Config.reference) 0x3FF#11 = true ∧
    sampleBit (cfg := Config.reference) 0x3FF#11 = true := by decide

theorem witness_DcbShiftMovesReadings : Config.reference.FitsRaw (withTmp { Temps.clear with raw := -128 }).tmp.raw := by
  decide

theorem witness_FifoPushWritesOneSlot : ∀ v ∈ [-127, 127],
    next? (exec .fifoPush (withTmp { Temps.clear with v := v })) (fun t => memRead t 0) = some v := by decide

theorem witness_FifoAdvWrapsIndex : (tapsAt 127 0).idx = 127 := by decide

theorem witness_ChoSumIsExact (e : Slot) : memRead State.reset e ≠ -128 := by
  show (0 : Int) ≠ -128
  decide

theorem witness_OutBiasAddsMidScale : ∀ c ∈ [-127, 127],
    -127 ≤ (withTmp { Temps.clear with c := c }).tmp.c ∧ (withTmp { Temps.clear with c := c }).tmp.c ≤ 127 := by decide

theorem witness_OutPendStoresCode : ∀ u ∈ [0, 255],
    0 ≤ (withTmp { Temps.clear with u := u }).tmp.u ∧ (withTmp { Temps.clear with u := u }).tmp.u ≤ 255 := by decide

theorem witness_LfoStepCounts : period4.chorusPeriod ≤ (3#6).toNat + 1 ∧ (2#6).toNat + 1 < period4.chorusPeriod := by decide

theorem witness_PrimitivesMeetTheirRules : wrap 1 1 = -1 ∧ sext (0x80#8) = -128 ∧ asr (-1) 4 = -1 := by decide

theorem witness_LeakMovesTowardZero : ∀ t ∈ [-32768, -1, 0, 32767],
    -(2 ^ (Config.reference.accW - 1)) ≤ t ∧ t ≤ 2 ^ (Config.reference.accW - 1) - 1 ∧
    Runs .dcbLeak (withTmp { Temps.clear with t := t }) := by decide

theorem witness_LeakMovesTowardZero_noShift : ∃ s : State, s.cfg.leakShift = 0 ∧ s.tmp.t = -32768 ∧ Runs .dcbLeak s :=
  ⟨{ State.resetOf ⟨8, 16, 0, 64, by decide⟩ with tmp := { Temps.clear with t := -32768 } }, rfl, rfl, rfl⟩

theorem witness_ConstantInputMovesTowardRest : ∀ y ∈ [240, 16, 15, 0, -1, -225],
    Runs (.sample (readXCur (filterAt y 100))) (filterAt y 100) := by decide

theorem witness_ConstantInputComesToRest :
    (∀ i ∈ List.replicate 51 (Instr.sample 100), i = .idle ∨ i = .commit ∨ i = .sample 100) ∧
    (List.replicate 51 (Instr.sample 100)).countP (fun i => i ≠ .idle && i ≠ .commit) = 51 ∧
    (∀ y ∈ [51, 16, 15, 0, -1, -51], readXCur (filterAt y 100) = 100 ∧ (readY (filterAt y 100)).natAbs ≤ 51) ∧
    ∀ y ∈ [240, -225], readXCur (filterAt y 100) = 100 ∧ (filterAt y 100).cfg.leakShift = 4 ∧
      -225 ≤ readY (filterAt y 100) ∧ readY (filterAt y 100) ≤ 240 :=
  ⟨fun _ h => .inr (.inr (List.mem_replicate.mp h).2), by simp, by decide, by decide⟩

/-- The reset state is within the bounds of rule R36. -/
theorem witness_Bounds : State.reset.Bounds where
  bufWf := by decide
  entries := fun _ => ⟨show (-127 : Int) ≤ 0 by decide, show (0 : Int) ≤ 127 by decide⟩
  zLow := by decide
  zHigh := by decide
  dBound := by decide
  subBound := by decide
  pendCode := by decide
  dutyCode := by decide

theorem witness_IntegratorFormWithoutWrap : State.reset.Bounds ∧ Runs (.sample (-128)) State.reset :=
  ⟨witness_Bounds, by decide⟩

theorem witness_TapAddressesDistinct : (tapsAt 0 0).d = 0 ∧ (tapsAt 0 1).d = 1 := by decide

theorem witness_SweepAfterSamples :
    (∀ i ∈ [Instr.sample 127, .commit, .idle, .sample (-128), .commit],
      i = .idle ∨ i = .commit ∨ ∃ raw, i = .sample raw ∧ State.reset.cfg.FitsRaw raw) ∧
    [Instr.sample 127, .commit, .idle, .sample (-128), .commit].countP (fun i => i ≠ .idle && i ≠ .commit) = 2 ∧
    State.reset.d = 0 ∧ State.reset.sub = 0 := by
  refine ⟨?_, by decide⟩
  simp only [List.forall_mem_cons, List.not_mem_nil, false_imp_iff, implies_true, and_true]
  exact ⟨.inr (.inr ⟨_, rfl, by decide⟩), .inr (.inl trivial), .inl trivial, .inr (.inr ⟨_, rfl, by decide⟩), .inr (.inl trivial)⟩

/-- Any number of SAMPLEs runs. -/
theorem samples_run (n : Nat) : ∀ s : State, ∃ t, runOps (List.replicate n (.sample 0)) s = .next t := by
  induction n with
  | zero => exact fun s => ⟨s, rfl⟩
  | succ n ih =>
    intro s
    have hp : (0 : Int) < 2 ^ (s.cfg.rawW - 1) := by positivity
    have hf : s.cfg.FitsRaw 0 := ⟨by omega, by omega⟩
    obtain ⟨t, ht⟩ := ih (monitorSample (dropTemps (runSample 0 s)))
    refine ⟨t, ?_⟩
    show (match exec (.sample 0) s with | .next u => _ | .fault r => _ | .refused r => _) = _
    rw [show exec (.sample 0) s = .next (monitorSample (dropTemps (runSample 0 s))) from if_pos hf]
    exact ht

theorem witness_PushedSampleRetained :
    (∀ i ∈ List.replicate 127 (Instr.sample 0), i = .idle ∨ i = .commit ∨ ∃ raw, i = .sample raw) ∧
    (List.replicate 127 (Instr.sample 0)).countP (fun i => i ≠ .idle && i ≠ .commit) = 127 ∧
    ∃ t, runOps (List.replicate 127 (.sample 0)) State.reset = .next t :=
  ⟨fun _ h => .inr (.inr ⟨0, (List.mem_replicate.mp h).2⟩), by simp, samples_run _ _⟩

theorem witness_DutyHasTwoWriters : ∀ i ∈ [Instr.commit, .outCommit, .reset, .idle, .sample 127, .dcbShift],
    Runs i State.reset := by decide

theorem witness_RegistersHaveTheirWriters : ∀ i ∈ [Instr.commit, .dcbLeak, .lfoStep, .fifoAdv, .fifoPush, .outPend,
    .dcbShift, .sample 127, .reset], Runs i State.reset := by decide

theorem witness_MonitorFollowsItsTable : ∀ i ∈ [Instr.sample 127, .commit, .idle, .reset],
    i.isEvent = true ∧ Runs i State.reset ∧ Runs i { State.reset with ph := .waitCommit } := by decide

theorem witness_RecordsNeverShrink : Steps (presented [0x200]) ∧ Steps (presented [0x400]) := by decide

theorem witness_AdcStartOnlyInSample : Steps (presented [0x100]) ∧ Steps (presented [0x000]) := by decide

theorem witness_StepKeepsMemoryCanonical : (presented [0x17F]).buf.wf ∧ Steps (presented [0x17F]) := by decide

theorem witness_StepKeepsBounds : (presented [0x180]).Bounds ∧ Steps (presented [0x180]) :=
  ⟨⟨witness_Bounds.bufWf, witness_Bounds.entries, witness_Bounds.zLow, witness_Bounds.zHigh, witness_Bounds.dBound,
    witness_Bounds.subBound, witness_Bounds.pendCode, witness_Bounds.dutyCode⟩, by decide⟩

/-- A reset state has the history of no SAMPLE, whatever is presented. -/
theorem witness_History (ws : List Nat) : (presented ws).History [] where
  xCur := by show sext (0#8) = 0; decide
  xPrev := by show sext (0#8) = 0; decide
  y := by show sext (0#16) = 0; decide
  idx := by show zext (0#7) = mod128 0; decide
  sub := by show (0#6).toNat = 0 % 64; decide
  d := by show (0#6).toNat = 0 / 64 % 64; decide
  buf := fun j h _ => by
    unfold storedSample
    rw [if_neg (by simp; omega)]
    rfl

theorem witness_StepKeepsHistory : (presented [0x17F]).History [] ∧ Steps (presented [0x17F]) :=
  ⟨witness_History _, by decide⟩

theorem witness_SampleExtendsHistory : (presented []).History [] ∧ Runs (.sample (-128)) (presented []) ∧
    Runs .commit (presented []) ∧ Runs .idle (presented []) ∧ Runs .reset (presented []) :=
  ⟨witness_History _, by decide⟩

theorem witness_StepKeepsMonitorOrder :
    State.MonitorOrder { presented [0x200] with stepNo := 3, faults := [⟨1, .sampleAfterSample⟩, ⟨2, .commitWithoutSample⟩] } ∧
    Steps { presented [0x200] with stepNo := 3, faults := [⟨1, .sampleAfterSample⟩, ⟨2, .commitWithoutSample⟩] } :=
  ⟨⟨by decide, by decide, rfl⟩, by decide⟩

theorem witness_ContractRunsClean :
    contractForm (stimOps (presented [0x000, 0x400, 0x10A, 0x000, 0x200, 0x17F])) = true := by decide

theorem witness_SamePeriodHandoff : State.reset.ph = .waitSample ∧ (∀ r ∈ [10, -128], Config.reference.FitsRaw r) ∧
    (pendings [10, -128] State.reset).getLast? = some 8 := by decide

end Sys2Proof.Tests
end

section
/-! SUPPORT. The functions of `00_scope.md` rules R9, R10, R12 and R13, each said once: `wrap` by its range and
congruence, `zext` and `sext` of a field, `asr` as a floor, `mod128` and `bias128` as operations on bits. -/

namespace Sys2Proof.Machine

theorem wrap_range (n : Nat) (i : Int) : -(2 ^ (n - 1)) ≤ wrap n i ∧ wrap n i < 2 ^ (n - 1) :=
  ⟨sext_lower (field n i), sext_upper (field n i)⟩

theorem dvd_wrap_sub (n : Nat) (i : Int) : (2 ^ n : Int) ∣ wrap n i - i := by
  rw [wrap_eq_bmod]
  exact_mod_cast Int.dvd_bmod_sub_self

theorem zext_field (n : Nat) (i : Int) : zext (field n i) = i % 2 ^ n := by
  have nonneg : 0 ≤ i % ((2 ^ n : Nat) : Int) := Int.emod_nonneg i (by positivity)
  unfold zext field
  rw [BitVec.toNat_ofInt, Int.toNat_of_nonneg nonneg]
  push_cast
  rfl

theorem sext_eq_ite_topBit {n : Nat} (v : BitVec n) :
    sext v = if v.getLsbD (n - 1) then (v.toNat : Int) - 2 ^ n else v.toNat := by
  rw [← BitVec.msb_eq_getLsbD_last]
  exact_mod_cast BitVec.toInt_eq_msb_cond v

theorem asr_floor (i : Int) (k : Nat) : asr i k * 2 ^ k ≤ i ∧ i < (asr i k + 1) * 2 ^ k :=
  have pos : (0 : Int) < 2 ^ k := by positivity
  ⟨Int.ediv_mul_le i pos.ne', Int.lt_ediv_add_one_mul_self i pos⟩

theorem mod128_eq_lowBits (i : Int) : mod128 i = zext (field 7 i) := by
  rw [mod128_eq_emod, zext_field]
  rfl

/-- Adding the weight of a byte's top bit changes that bit alone: its carry leaves the byte. -/
theorem xor_topBit_eq_add : ∀ v : Byte, v ^^^ 0x80#8 = v + 0x80#8 := by decide

theorem bias128_sext (v : Byte) : bias128 (sext v) = zext (v ^^^ 0x80#8) := by
  have := v.isLt
  rw [xor_topBit_eq_add]
  unfold bias128 sext zext Config.midScale
  rw [BitVec.toInt_eq_toNat_cond, BitVec.toNat_add]
  split <;> simp <;> omega

theorem bias128_sext_range (v : Byte) : 0 ≤ bias128 (sext v) ∧ bias128 (sext v) ≤ 255 := by
  rw [bias128_sext]
  obtain ⟨lower, upper⟩ := zext_range (v ^^^ 0x80#8)
  exact ⟨lower, Int.le_of_lt_add_one upper⟩

/-- Settles O35: one lemma per primitive; the formulas of `sat127` and `bias128` are their definitions. -/
theorem primitivesMeetTheirRules : Obligations.PrimitivesMeetTheirRules := by
  refine ⟨?wrap, ?field, fun _ _ => rfl, ?sext, asr_floor, fun _ => rfl, ?mod128, fun _ => rfl, ?bias128⟩
  case wrap =>
    intro n i _
    obtain ⟨lower, upper⟩ := wrap_range n i
    exact ⟨lower, Int.le_sub_one_of_lt upper, dvd_wrap_sub n i⟩
  case field => exact fun n i => ⟨zext_field n i, sext_field n i⟩
  case sext => exact fun _ v _ => ⟨sext_eq_ite_topBit v, wrap_sext v⟩
  case mod128 =>
    intro i
    obtain ⟨lower, upper⟩ := mod128_range i
    exact ⟨rfl, lower, Int.le_of_lt_add_one upper, mod128_eq_lowBits i⟩
  case bias128 =>
    intro v
    obtain ⟨lower, upper⟩ := bias128_sext_range v
    exact ⟨lower, upper, bias128_sext v⟩

end Sys2Proof.Machine
end

section
/-! SUPPORT. What SAMPLE leaves in the registers, as one transition, and what every invariant of the hardware's registers
needs: it holds at reset, SAMPLE and COMMIT keep it, so every step keeps it. -/

namespace Sys2Proof.Machine

/-! ## The registers after SAMPLE (`43_sample_cycle.md` rule R115) -/

@[simp] theorem runSample_cfg (raw : Int) (s : State) : (runSample raw s).cfg = s.cfg := by simp [runSample]
@[simp] theorem runSample_xPrev (raw : Int) (s : State) : readXPrev (runSample raw s) = readXCur s := by simp [runSample]
@[simp] theorem runSample_idx (raw : Int) (s : State) : (runSample raw s).idx = field 7 (mod128 (zext s.idx + 1)) := by
  simp [runSample]
@[simp] theorem runSample_sub (raw : Int) (s : State) :
    (runSample raw s).sub = (lfoNext s.cfg.chorusPeriod s.sub s.d).1 := by simp [runSample]
@[simp] theorem runSample_d (raw : Int) (s : State) :
    (runSample raw s).d = (lfoNext s.cfg.chorusPeriod s.sub s.d).2 := by simp [runSample]
@[simp] theorem runSample_duty (raw : Int) (s : State) : (runSample raw s).duty = s.duty := by simp [runSample]

theorem wrap_of_fitsRaw {cfg : Config} {raw : Int} (fits : cfg.FitsRaw raw) : wrap cfg.rawW raw = raw := by
  obtain ⟨⟨two_le, _⟩, _⟩ := cfg.legal
  exact wrap_id (by omega) fits.1 (Int.lt_of_le_sub_one fits.2)

theorem runSample_xCur {raw : Int} {s : State} (fits : s.cfg.FitsRaw raw) : readXCur (runSample raw s) = raw := by
  simp [runSample, wrap_of_fitsRaw fits]

theorem runSample_y {raw : Int} {s : State} (fits : s.cfg.FitsRaw raw) :
    readY (runSample raw s) = wrap s.cfg.accW (wrap s.cfg.accW (readY s + (raw - readXCur s)) -
      asr (wrap s.cfg.accW (readY s + (raw - readXCur s))) s.cfg.leakShift) := by
  simp [runSample, wrap_of_fitsRaw fits]

theorem runSample_wf {s : State} (raw : Int) (h : s.buf.wf) : (runSample raw s).buf.wf := by
  simpa [runSample] using write_wf s.idx _ h

/-- The slot `IDX` named takes the clipped filter output (rules R80, R93). -/
theorem memRead_runSample_pushed (raw : Int) (s : State) :
    memRead (runSample raw s) s.idx = sat127 (readY (runSample raw s)) := by
  simp [runSample, fifoPush]

theorem memRead_runSample_other (raw : Int) {s : State} {a : Slot} (ne : a ≠ s.idx) :
    memRead (runSample raw s) a = memRead s a := by
  simp [runSample, fifoPush, memRead_memWrite_other _ _ ne]

/-! ## The reset state (`70_reset_and_hazards.md` rule R161) -/

theorem resetOf_xCur (cfg : Config) : readXCur (State.resetOf cfg) = 0 := BitVec.toInt_zero
theorem resetOf_xPrev (cfg : Config) : readXPrev (State.resetOf cfg) = 0 := BitVec.toInt_zero
theorem resetOf_y (cfg : Config) : readY (State.resetOf cfg) = 0 := BitVec.toInt_zero
theorem resetOf_memRead (cfg : Config) (a : Slot) : memRead (State.resetOf cfg) a = 0 := rfl
theorem resetOf_wf (cfg : Config) : (State.resetOf cfg).buf.wf := ⟨List.Pairwise.nil, nofun⟩

/-! ## The steps, by what they do to the hardware's registers -/

/-- `t` has the parameters of `s` and holds the same in every register of rule R20. -/
structure SameRegisters (s t : State) : Prop where
  cfg : t.cfg = s.cfg
  xCur : readXCur t = readXCur s
  xPrev : readXPrev t = readXPrev s
  y : readY t = readY s
  buf : t.buf = s.buf
  idx : t.idx = s.idx
  d : t.d = s.d
  sub : t.sub = s.sub
  pend : t.pend = s.pend
  duty : t.duty = s.duty

theorem sameRegisters_withStim (s : State) (rest : List Input) : SameRegisters s { s with stim := rest } :=
  ⟨rfl, rfl, rfl, rfl, rfl, rfl, rfl, rfl, rfl, rfl⟩

theorem sameRegisters_finishStep (i : Instr) (boundary : Bool) (s : State) :
    SameRegisters s (finishStep i boundary s) := by
  constructor <;> simp [finishStep]

theorem sameRegisters_of_exec_idle {s t : State} (h : exec .idle s = .next t) : SameRegisters s t := by
  cases h
  constructor <;> simp

theorem sameRegisters_of_exec_commit {s t : State} (h : exec .commit s = .next t) : SameRegisters (outCommit s) t := by
  cases h
  constructor <;> simp

theorem sameRegisters_of_exec_reset {s t : State} (h : exec .reset s = .next t) :
    SameRegisters (State.resetOf s.cfg) t := by
  cases h
  exact ⟨rfl, rfl, rfl, rfl, rfl, rfl, rfl, rfl, rfl, rfl⟩

theorem sameRegisters_of_exec_sample {raw : Int} {s t : State} (h : exec (.sample raw) s = .next t) :
    SameRegisters (runSample raw s) t := by
  obtain ⟨-, rfl⟩ := exec_sample_next_iff.mp h
  constructor <;> simp

/-- An event word selects RESET, IDLE, a SAMPLE, COMMIT or the reserved pattern (rule R61). -/
theorem decode_cases (cfg : Config) (w : EventWord cfg) :
    decode cfg w = .reset ∨ decode cfg w = .idle ∨ (∃ raw, decode cfg w = .sample raw) ∨ decode cfg w = .commit ∨
      decode cfg w = .both := by
  unfold decode
  split
  · exact .inl rfl
  · split
    · exact .inr (.inl rfl)
    · exact .inr (.inr (.inl ⟨_, rfl⟩))
    · exact .inr (.inr (.inr (.inl rfl)))
    · exact .inr (.inr (.inr (.inr rfl)))

/-- An invariant of the registers that every reset state meets and that SAMPLE and COMMIT keep is kept by every step. -/
theorem step_keeps {Inv : State → Prop} (frame : ∀ s t, SameRegisters s t → Inv s → Inv t)
    (reset : ∀ cfg, Inv (State.resetOf cfg))
    (sample : ∀ s raw, s.cfg.FitsRaw raw → Inv s → Inv (runSample raw s))
    (commit : ∀ s, Inv s → Inv (outCommit s)) {s t : State} (inv : Inv s) (h : step s = .next t) : Inv t := by
  obtain ⟨-, rfl⟩ | ⟨inp, rest, u, -, run, rfl⟩ := step_next_cases h
  · exact inv
  have fetched := frame _ _ (sameRegisters_withStim s rest) inv
  refine frame _ _ (sameRegisters_finishStep _ _ u) ?_
  obtain op | op | ⟨raw, op⟩ | op | op := decode_cases s.cfg (sampledWord s inp) <;> rw [op] at run
  · exact frame _ _ (sameRegisters_of_exec_reset run) (reset _)
  · exact frame _ _ (sameRegisters_of_exec_idle run) fetched
  · obtain ⟨fits, -⟩ := exec_sample_next_iff.mp run
    exact frame _ _ (sameRegisters_of_exec_sample run) (sample _ raw fits fetched)
  · exact frame _ _ (sameRegisters_of_exec_commit run) (commit _ fetched)
  · exact nomatch run

/-! ## The canonical form of the memory -/

/-- Settles O50: the one write of the memory in a step is that of the push. -/
theorem stepKeepsMemoryCanonical : Obligations.StepKeepsMemoryCanonical :=
  fun _ _ => step_keeps (Inv := fun s => s.buf.wf)
    (fun _ _ same wf => by rw [same.buf]; exact wf)
    resetOf_wf
    (fun _ raw _ wf => runSample_wf raw wf)
    (fun _ wf => wf)

end Sys2Proof.Machine
end

section
/-! SUPPORT. The bounds of reachable states (`10_state.md` rule R36 items (i) to (iv), `41_dc_filter.md` rule R97): the
filter as an integrator that never wraps, the slow counter below `P`, the output code in 1 to 255. -/

namespace Sys2Proof.Machine

/-- A shifted value lies between 0 and the value (rule R92). -/
theorem asr_between_zero_and (t : Int) (k : Nat) :
    (t < 0 ∧ t ≤ asr t k ∧ asr t k ≤ -1) ∨ (0 ≤ t ∧ 0 ≤ asr t k ∧ asr t k ≤ t) := by
  rcases lt_or_ge t 0 with neg | nonneg
  · exact .inl ⟨neg, asr_neg k neg⟩
  · exact .inr ⟨nonneg, asr_nonneg k nonneg⟩

/-- Taking off its shifted value moves `t` toward zero, not past it. -/
theorem sub_asr_range {t b : Int} (k : Nat) (lower : -b ≤ t) (upper : t ≤ b) : -b ≤ t - asr t k ∧ t - asr t k ≤ b := by
  have := asr_between_zero_and t k
  omega

/-- Rule R97's inductive step: a leak of `z + raw` keeps `z` in the range that mirrors the range of `raw`. -/
theorem sub_asr_add_range {z raw m : Int} (k : Nat) (zLow : -(m - 1) ≤ z) (zHigh : z ≤ m) (rawLow : -m ≤ raw)
    (rawHigh : raw ≤ m - 1) : -(m - 1) ≤ z - asr (z + raw) k ∧ z - asr (z + raw) k ≤ m := by
  have := asr_between_zero_and (z + raw) k
  omega

theorem two_pow_rawW (cfg : Config) : (2 : Int) ^ cfg.rawW = 2 * 2 ^ (cfg.rawW - 1) := by
  obtain ⟨⟨two_le, _⟩, _⟩ := cfg.legal
  exact (mul_pow_sub_one (by omega) 2).symm

/-- `ACC_W` is wide enough for every value of rule R97's range (rule R7: `ACC_W >= RAW_W + 1`). -/
theorem wrap_accW_id (cfg : Config) {i : Int} (lower : -(2 ^ cfg.rawW - 1) ≤ i) (upper : i ≤ 2 ^ cfg.rawW - 1) :
    wrap cfg.accW i = i := by
  obtain ⟨-, ⟨wider, -⟩, -⟩ := cfg.legal
  have room : (2 : Int) ^ cfg.rawW ≤ 2 ^ (cfg.accW - 1) := pow_le_pow_right₀ (by norm_num) (by omega)
  exact wrap_id (by omega) (by omega) (by omega)

theorem State.Bounds.add_raw_range {s : State} {raw : Int} (h : s.Bounds) (fits : s.cfg.FitsRaw raw) :
    -(2 ^ s.cfg.rawW - 1) ≤ readY s - readXCur s + raw ∧ readY s - readXCur s + raw ≤ 2 ^ s.cfg.rawW - 1 := by
  obtain ⟨rawLow, rawHigh⟩ := fits
  have zLow := h.zLow
  have zHigh := h.zHigh
  rw [two_pow_rawW]
  omega

/-- `Y = Z + X_CUR`, so the bound of `Y` follows from that of `Z`. -/
theorem State.Bounds.readY_range {s : State} (h : s.Bounds) :
    -(2 ^ s.cfg.rawW - 1) ≤ readY s ∧ readY s ≤ 2 ^ s.cfg.rawW - 1 := by
  have range := h.add_raw_range (raw := readXCur s) ⟨sext_lower s.xCur, Int.le_sub_one_of_lt (sext_upper s.xCur)⟩
  rwa [Int.sub_add_cancel] at range

/-- Within the bounds neither of the filter's two wraps changes a value (rules R95, R97). -/
theorem runSample_y_integrator {s : State} {raw : Int} (h : s.Bounds) (fits : s.cfg.FitsRaw raw) :
    readY (runSample raw s) =
      readY s - readXCur s + raw - asr (readY s - readXCur s + raw) s.cfg.leakShift := by
  obtain ⟨lower, upper⟩ := h.add_raw_range fits
  obtain ⟨leakLower, leakUpper⟩ := sub_asr_range s.cfg.leakShift lower upper
  have sum : readY s + (raw - readXCur s) = readY s - readXCur s + raw := by omega
  rw [runSample_y fits, sum, wrap_accW_id s.cfg lower upper, wrap_accW_id s.cfg leakLower leakUpper]

theorem runSample_z {s : State} {raw : Int} (h : s.Bounds) (fits : s.cfg.FitsRaw raw) :
    readY (runSample raw s) - readXCur (runSample raw s) =
      readY s - readXCur s - asr (readY s - readXCur s + raw) s.cfg.leakShift := by
  rw [runSample_y_integrator h fits, runSample_xCur fits]
  omega

theorem lfoNext_below_period (cfg : Config) {sub d : Counter} (hd : d.toNat ≤ cfg.chorusPeriod - 1) :
    (lfoNext cfg.chorusPeriod sub d).1.toNat ≤ cfg.chorusPeriod - 1 ∧
      (lfoNext cfg.chorusPeriod sub d).2.toNat ≤ cfg.chorusPeriod - 1 := by
  obtain ⟨-, -, -, pos, -⟩ := cfg.legal
  obtain ⟨-, sub', d'⟩ | ⟨count, sub', d'⟩ := lfoNext_cases cfg sub d
  · rw [sub', d']
    exact ⟨Nat.zero_le _, Nat.le_sub_one_of_lt (Nat.mod_lt _ pos)⟩
  · rw [sub', d']
    exact ⟨Nat.le_sub_one_of_lt count, hd⟩

/-- The output code of a clipped sample is never 0 (rules R105, R125). -/
theorem outputCode_ne_zero (sum : Int) : field 8 (bias128 (sat127 sum)) ≠ 0 := by
  intro zero
  have lower := sat127_lower sum
  have upper := sat127_upper sum
  have code : bias128 (sat127 sum) % 2 ^ 8 = 0 := by
    rw [← zext_field, zero]
    rfl
  unfold bias128 Config.midScale at code
  omega

theorem runSample_pend_ne_zero (raw : Int) (s : State) : (runSample raw s).pend ≠ 0 := by
  simp only [runSample, fifoAdv_pend, lfoStep_pend, formOutput_pend]
  exact outputCode_ne_zero _

theorem State.Bounds.frame {s t : State} (same : SameRegisters s t) (h : s.Bounds) : t.Bounds where
  bufWf := by rw [same.buf]; exact h.bufWf
  entries := fun a => by rw [memRead_congr same.buf]; exact h.entries a
  zLow := by rw [same.cfg, same.y, same.xCur]; exact h.zLow
  zHigh := by rw [same.cfg, same.y, same.xCur]; exact h.zHigh
  dBound := by rw [same.cfg, same.d]; exact h.dBound
  subBound := by rw [same.cfg, same.sub]; exact h.subBound
  pendCode := by rw [same.pend]; exact h.pendCode
  dutyCode := by rw [same.duty]; exact h.dutyCode

theorem resetOf_bounds (cfg : Config) : (State.resetOf cfg).Bounds where
  bufWf := resetOf_wf cfg
  entries := fun a => by rw [resetOf_memRead]; decide
  zLow := by
    have : (0 : Int) < 2 ^ (cfg.rawW - 1) := by positivity
    rw [resetOf_y, resetOf_xCur]
    show -((2 : Int) ^ (cfg.rawW - 1) - 1) ≤ 0 - 0
    omega
  zHigh := by
    rw [resetOf_y, resetOf_xCur]
    positivity
  dBound := Nat.zero_le _
  subBound := Nat.zero_le _
  pendCode := by show (0x80#8) ≠ 0; decide
  dutyCode := by show (0x80#8) ≠ 0; decide

theorem runSample_entries {s : State} (raw : Int) (h : s.Bounds) (a : Slot) :
    -127 ≤ memRead (runSample raw s) a ∧ memRead (runSample raw s) a ≤ 127 := by
  by_cases pushed : a = s.idx
  · rw [pushed, memRead_runSample_pushed]
    exact ⟨sat127_lower _, sat127_upper _⟩
  · rw [memRead_runSample_other raw pushed]
    exact h.entries a

theorem runSample_bounds {s : State} {raw : Int} (h : s.Bounds) (fits : s.cfg.FitsRaw raw) :
    (runSample raw s).Bounds := by
  obtain ⟨zLow, zHigh⟩ := sub_asr_add_range s.cfg.leakShift h.zLow h.zHigh fits.1 fits.2
  obtain ⟨subBound, dBound⟩ := lfoNext_below_period s.cfg (sub := s.sub) h.dBound
  exact {
    bufWf := runSample_wf raw h.bufWf
    entries := runSample_entries raw h
    zLow := by rw [runSample_z h fits, runSample_cfg]; exact zLow
    zHigh := by rw [runSample_z h fits, runSample_cfg]; exact zHigh
    dBound := by rw [runSample_d, runSample_cfg]; exact dBound
    subBound := by rw [runSample_sub, runSample_cfg]; exact subBound
    pendCode := runSample_pend_ne_zero raw s
    dutyCode := by rw [runSample_duty]; exact h.dutyCode }

/-- COMMIT gives `DUTY` the code of `PEND`, which is not 0. -/
theorem outCommit_bounds {s : State} (h : s.Bounds) : (outCommit s).Bounds :=
  { h with dutyCode := h.pendCode }

/-- Settles O51: every step keeps the bounds, and the bound of `Y` follows from them. -/
theorem stepKeepsBounds : Obligations.StepKeepsBounds := by
  intro s t h run
  have bounds : t.Bounds := step_keeps (Inv := State.Bounds) (fun _ _ => State.Bounds.frame) resetOf_bounds
    (fun _ _ fits h => runSample_bounds h fits) (fun _ => outCommit_bounds) h run
  exact ⟨bounds, bounds.readY_range⟩

end Sys2Proof.Machine
end

section
/-! SUPPORT. The history since reset (`10_state.md` rule R36 items (v) to (vii)): what one more SAMPLE does to the slow
counter of `n` SAMPLEs and to the ages of the slots. -/

namespace Sys2Proof.Machine

/-- Rule R108 by one SAMPLE: the counters that `n` SAMPLEs leave step to those that `n + 1` leave. -/
theorem lfoNext_count (cfg : Config) {sub d : Counter} {n : Nat} (hsub : sub.toNat = n % cfg.chorusPeriod)
    (hd : d.toNat = n / cfg.chorusPeriod % cfg.chorusPeriod) :
    (lfoNext cfg.chorusPeriod sub d).1.toNat = (n + 1) % cfg.chorusPeriod ∧
      (lfoNext cfg.chorusPeriod sub d).2.toNat = (n + 1) / cfg.chorusPeriod % cfg.chorusPeriod := by
  obtain ⟨-, -, -, pos, -⟩ := cfg.legal
  have below := Nat.mod_lt n pos
  have parts := Nat.mod_add_div n cfg.chorusPeriod
  obtain ⟨full, sub', d'⟩ | ⟨count, sub', d'⟩ := lfoNext_cases cfg sub d
  · rw [hsub] at full
    obtain ⟨quotient, rest⟩ :
        (n + 1) / cfg.chorusPeriod = n / cfg.chorusPeriod + 1 ∧ (n + 1) % cfg.chorusPeriod = 0 :=
      (Nat.div_mod_unique pos).mpr ⟨by rw [Nat.mul_succ]; omega, pos⟩
    rw [quotient, rest, sub', d', hd, Nat.mod_add_mod]
    exact ⟨rfl, rfl⟩
  · rw [hsub] at count sub'
    obtain ⟨quotient, rest⟩ :
        (n + 1) / cfg.chorusPeriod = n / cfg.chorusPeriod ∧
          (n + 1) % cfg.chorusPeriod = n % cfg.chorusPeriod + 1 :=
      (Nat.div_mod_unique pos).mpr ⟨by omega, count⟩
    rw [quotient, rest, sub', d', hd]
    exact ⟨rfl, rfl⟩

/-- After FIFO.ADV the slot just pushed has age 1. -/
theorem indexPlus_advanced_one (idx : Slot) : indexPlus (field 7 (mod128 (zext idx + 1))) (-1) = idx := by
  have := zext_range idx
  apply zext_injective
  rw [zext_indexPlus, zext_field_mod128]
  simp only [mod128_eq_emod]
  omega

/-- FIFO.ADV makes every slot one SAMPLE older. -/
theorem indexPlus_advanced_succ (idx : Slot) (j : Int) :
    indexPlus (field 7 (mod128 (zext idx + 1))) (-(j + 1)) = indexPlus idx (-j) := by
  apply zext_injective
  rw [zext_indexPlus, zext_indexPlus, zext_field_mod128]
  simp only [mod128_eq_emod]
  omega

/-- The slots of ages 1 to 127 are not the one that is pushed next. -/
theorem indexPlus_neg_ne (idx : Slot) {j : Int} (pos : 1 ≤ j) (below : j ≤ 127) : indexPlus idx (-j) ≠ idx := by
  have := zext_range idx
  intro eq
  have eq := congrArg zext eq
  rw [zext_indexPlus, mod128_eq_emod] at eq
  omega

theorem storedSample_cons_one (cfg : Config) (raw : Int) (raws : List Int) :
    storedSample cfg (raw :: raws) 1 = sat127 (filterOut cfg (raw :: raws)) := by
  simp [storedSample]

theorem storedSample_cons_succ (cfg : Config) (raw : Int) (raws : List Int) {j : Nat} (pos : 1 ≤ j) :
    storedSample cfg (raw :: raws) (j + 1) = storedSample cfg raws j := by
  obtain ⟨k, rfl⟩ := Nat.exists_eq_add_of_le' pos
  simp [storedSample]

theorem storedSample_nil (cfg : Config) {j : Nat} (pos : 1 ≤ j) : storedSample cfg [] j = 0 :=
  if_neg (Nat.not_le.mpr pos)

theorem State.History.frame {s t : State} {raws : List Int} (same : SameRegisters s t) (h : s.History raws) :
    t.History raws where
  xCur := by rw [same.xCur]; exact h.xCur
  xPrev := by rw [same.xPrev]; exact h.xPrev
  y := by rw [same.y, same.cfg]; exact h.y
  idx := by rw [same.idx]; exact h.idx
  sub := by rw [same.sub, same.cfg]; exact h.sub
  d := by rw [same.d, same.cfg]; exact h.d
  buf := fun j pos le => by rw [same.idx, same.cfg, memRead_congr same.buf]; exact h.buf j pos le

theorem resetOf_history (cfg : Config) : (State.resetOf cfg).History [] where
  xCur := resetOf_xCur cfg
  xPrev := resetOf_xPrev cfg
  y := resetOf_y cfg
  idx := rfl
  sub := (Nat.zero_mod _).symm
  d := by
    show 0 = 0 / cfg.chorusPeriod % cfg.chorusPeriod
    rw [Nat.zero_div, Nat.zero_mod]
  buf := fun j pos _ => by rw [resetOf_memRead, storedSample_nil _ pos]

/-- The filter of the machine takes the step that `filterOut` takes (rule R94). -/
theorem runSample_y_of_history {s : State} {raws : List Int} {raw : Int} (h : s.History raws)
    (fits : s.cfg.FitsRaw raw) : readY (runSample raw s) = filterOut s.cfg (raw :: raws) := by
  rw [runSample_y fits, h.y, h.xCur]
  rfl

theorem memRead_runSample_of_history {s : State} {raws : List Int} {raw : Int} (h : s.History raws)
    (fits : s.cfg.FitsRaw raw) {j : Nat} (pos : 1 ≤ j) (le : j ≤ 128) :
    memRead (runSample raw s) (indexPlus (runSample raw s).idx (-(j : Int))) = storedSample s.cfg (raw :: raws) j := by
  rw [runSample_idx]
  obtain rfl | ⟨k, kPos, rfl⟩ : j = 1 ∨ ∃ k, 1 ≤ k ∧ j = k + 1 := by
    rcases Nat.eq_or_lt_of_le pos with eq | lt
    · exact .inl eq.symm
    · exact .inr ⟨j - 1, by omega, by omega⟩
  · rw [Nat.cast_one, indexPlus_advanced_one, memRead_runSample_pushed, runSample_y_of_history h fits,
      storedSample_cons_one]
  · rw [Nat.cast_succ, indexPlus_advanced_succ, memRead_runSample_other raw (indexPlus_neg_ne _ (by omega) (by omega)),
      storedSample_cons_succ _ _ _ kPos]
    exact h.buf k kPos (by omega)

theorem runSample_history {s : State} {raws : List Int} {raw : Int} (h : s.History raws)
    (fits : s.cfg.FitsRaw raw) : (runSample raw s).History (raw :: raws) := by
  obtain ⟨sub, d⟩ := lfoNext_count s.cfg h.sub h.d
  exact {
    xCur := runSample_xCur fits
    xPrev := by rw [runSample_xPrev]; exact h.xCur
    y := by rw [runSample_cfg]; exact runSample_y_of_history h fits
    idx := by
      rw [runSample_idx, zext_field_mod128, h.idx, List.length_cons, Nat.cast_succ]
      simp only [mod128_eq_emod, Int.emod_add_emod]
    sub := by rw [runSample_sub, runSample_cfg]; exact sub
    d := by rw [runSample_d, runSample_cfg]; exact d
    buf := fun j pos le => by rw [runSample_cfg]; exact memRead_runSample_of_history h fits pos le }

theorem outCommit_history {s : State} {raws : List Int} (h : s.History raws) : (outCommit s).History raws :=
  { h with }

/-- Settles O53: each operation leaves the registers of a state whose history is known. -/
theorem sampleExtendsHistory : Obligations.SampleExtendsHistory := by
  intro s t raws h
  refine ⟨fun raw run => ?sample, fun run => ?commit, fun run => ?idle, fun run => ?reset⟩
  case sample =>
    obtain ⟨fits, -⟩ := exec_sample_next_iff.mp run
    exact (runSample_history h fits).frame (sameRegisters_of_exec_sample run)
  case commit => exact (outCommit_history h).frame (sameRegisters_of_exec_commit run)
  case idle => exact h.frame (sameRegisters_of_exec_idle run)
  case reset => exact (resetOf_history s.cfg).frame (sameRegisters_of_exec_reset run)

/-- Settles O52: a SAMPLE adds its operand to the list, a RESET starts it again, and nothing else moves it. -/
theorem stepKeepsHistory : Obligations.StepKeepsHistory :=
  fun _ _ raws h => step_keeps (Inv := fun s => ∃ raws, s.History raws)
    (fun _ _ same ⟨raws, h⟩ => ⟨raws, h.frame same⟩)
    (fun cfg => ⟨[], resetOf_history cfg⟩)
    (fun _ raw fits ⟨raws, h⟩ => ⟨raw :: raws, runSample_history h fits⟩)
    (fun _ ⟨raws, h⟩ => ⟨raws, outCommit_history h⟩) ⟨raws, h⟩

theorem resetOf_monitorOrder (cfg : Config) : (State.resetOf cfg).MonitorOrder where
  rising := List.Pairwise.nil
  past := nofun
  noTemps := rfl

/-- Settles O49, one lemma per invariant. -/
theorem resetMeetsInvariants : Obligations.ResetMeetsInvariants :=
  fun cfg => ⟨resetOf_bounds cfg, resetOf_history cfg, resetOf_monitorOrder cfg, resetOf_wf cfg⟩

end Sys2Proof.Machine
end

section
/-! SUPPORT. Event words and operations (`30_encoding.md` rules R60 to R68): every word is put together from its control
bits and its `raw` field, `decode` said by one equation per row of rule R61, and the encoder as the decoder's right
inverse. The statements of rules R61 to R63 and R68 follow. -/

namespace Sys2Proof.Machine

/-! ## The parts of an event word (rule R60) -/

theorem toNat_eventWord (cfg : Config) (control : BitVec 3) (raw : BitVec cfg.rawW) :
    (eventWord cfg control raw).toNat = 2 ^ cfg.rawW * control.toNat + raw.toNat := by
  unfold eventWord
  rw [BitVec.toNat_append, ← Nat.shiftLeft_add_eq_or_of_lt raw.isLt, Nat.shiftLeft_eq, Nat.mul_comm]

theorem exists_eq_eventWord {cfg : Config} (w : EventWord cfg) : ∃ control raw, w = eventWord cfg control raw :=
  ⟨w.extractLsb' cfg.rawW 3, rawField w, by
    apply BitVec.eq_of_getLsbD_eq
    intro i hi
    rw [eventWord, BitVec.getLsbD_append, rawField, BitVec.getLsbD_setWidth, BitVec.getLsbD_extractLsb']
    split
    · simp [*]
    · rw [show cfg.rawW + (i - cfg.rawW) = i by omega, decide_eq_true (by omega), Bool.true_and]⟩

/-- The `raw` field of a number in range is the number's residue. -/
theorem toNat_field (n : Nat) (i : Int) : (field n i).toNat = (i % 2 ^ n).toNat := by
  rw [← zext_field, zext, Int.toNat_natCast]

/-- Reading a `raw` field as a signed number is wrapping the number of its bits (rules R9, R62). -/
theorem wrap_toNat {n : Nat} (v : BitVec n) : wrap n v.toNat = sext v := by
  rw [wrap, field, BitVec.ofInt_natCast, BitVec.ofNat_toNat, BitVec.setWidth_eq]

/-- The signed reading of a `raw` field is in the range of rule R62. -/
theorem fitsRaw_sext {cfg : Config} (raw : BitVec cfg.rawW) : cfg.FitsRaw (sext raw) :=
  ⟨sext_lower raw, Int.le_sub_one_of_lt (sext_upper raw)⟩

/-! ## One equation per row of rule R61 -/

section rows
variable {cfg : Config} {w : EventWord cfg}

theorem decode_of_rst (rst : rstBit w = true) : decode cfg w = .reset := by
  simp only [decode, rst, if_true]

theorem decode_of_neither (rst : rstBit w = false) (c : commitBit w = false) (s : sampleBit w = false) :
    decode cfg w = .idle := by
  simp [decode, rst, c, s]

theorem decode_of_sample (rst : rstBit w = false) (c : commitBit w = false) (s : sampleBit w = true) :
    decode cfg w = .sample (sext (rawField w)) := by
  simp [decode, rst, c, s]

theorem decode_of_commit (rst : rstBit w = false) (c : commitBit w = true) (s : sampleBit w = false) :
    decode cfg w = .commit := by
  simp [decode, rst, c, s]

theorem decode_of_both (rst : rstBit w = false) (c : commitBit w = true) (s : sampleBit w = true) :
    decode cfg w = .both := by
  simp [decode, rst, c, s]

end rows

theorem decode_eventWord_reset (cfg : Config) {control : BitVec 3} (rst : control.getLsbD 2 = true)
    (raw : BitVec cfg.rawW) : decode cfg (eventWord cfg control raw) = .reset :=
  decode_of_rst (by rw [rstBit_eventWord, rst])

@[simp] theorem decode_eventWord_idle (cfg : Config) (raw : BitVec cfg.rawW) :
    decode cfg (eventWord cfg 0b000#3 raw) = .idle :=
  decode_of_neither (rstBit_eventWord ..) (commitBit_eventWord ..) (sampleBit_eventWord ..)

@[simp] theorem decode_eventWord_sample (cfg : Config) (raw : BitVec cfg.rawW) :
    decode cfg (eventWord cfg 0b001#3 raw) = .sample (sext raw) := by
  rw [decode_of_sample (rstBit_eventWord ..) (commitBit_eventWord ..) (sampleBit_eventWord ..), rawField_eventWord]

@[simp] theorem decode_eventWord_commit (cfg : Config) (raw : BitVec cfg.rawW) :
    decode cfg (eventWord cfg 0b010#3 raw) = .commit :=
  decode_of_commit (rstBit_eventWord ..) (commitBit_eventWord ..) (sampleBit_eventWord ..)

@[simp] theorem decode_eventWord_both (cfg : Config) (raw : BitVec cfg.rawW) :
    decode cfg (eventWord cfg 0b011#3 raw) = .both :=
  decode_of_both (rstBit_eventWord ..) (commitBit_eventWord ..) (sampleBit_eventWord ..)

/-- The five rows of rule R61, by the three control bits. -/
theorem control_cases : ∀ control : BitVec 3, control = 0b000#3 ∨ control = 0b001#3 ∨ control = 0b010#3 ∨
    control = 0b011#3 ∨ (4 ≤ control.toNat ∧ control.getLsbD 2 = true) := by decide

/-! ## The encoder against the decoder -/

theorem encode_reset (cfg : Config) : encode cfg .reset = some (eventWord cfg 0b100#3 0) := rfl
theorem encode_idle (cfg : Config) : encode cfg .idle = some (eventWord cfg 0b000#3 0) := rfl
theorem encode_commit (cfg : Config) : encode cfg .commit = some (eventWord cfg 0b010#3 0) := rfl

theorem encode_sample {cfg : Config} {raw : Int} (fits : cfg.FitsRaw raw) :
    encode cfg (.sample raw) = some (eventWord cfg 0b001#3 (field cfg.rawW raw)) := if_pos fits

/-- The encoder gives a word exactly to a well-formed event operation: one law of `Laws/PerInstr.lean` per operation. -/
theorem encode_isSome (cfg : Config) : ∀ i : Instr, (encode cfg i).isSome = (i.isEvent && i.wf cfg)
  | .reset => Laws.EncodeDomain.reset cfg
  | .idle => Laws.EncodeDomain.idle cfg
  | .sample raw => Laws.EncodeDomain.sample raw cfg
  | .commit => Laws.EncodeDomain.commit cfg
  | .both => Laws.EncodeDomain.both cfg
  | .adcTrig raw => Laws.EncodeDomain.adcTrig raw cfg
  | .dcbShift => Laws.EncodeDomain.dcbShift cfg
  | .dcbAcc => Laws.EncodeDomain.dcbAcc cfg
  | .dcbLeak => Laws.EncodeDomain.dcbLeak cfg
  | .dcbNarrow => Laws.EncodeDomain.dcbNarrow cfg
  | .fifoPush => Laws.EncodeDomain.fifoPush cfg
  | .choAddrA => Laws.EncodeDomain.choAddrA cfg
  | .choAddrB => Laws.EncodeDomain.choAddrB cfg
  | .choAddrC => Laws.EncodeDomain.choAddrC cfg
  | .choAddrD => Laws.EncodeDomain.choAddrD cfg
  | .fifoTap tap => Laws.EncodeDomain.fifoTap tap cfg
  | .choSum => Laws.EncodeDomain.choSum cfg
  | .choSat => Laws.EncodeDomain.choSat cfg
  | .outBias => Laws.EncodeDomain.outBias cfg
  | .outPend => Laws.EncodeDomain.outPend cfg
  | .lfoStep => Laws.EncodeDomain.lfoStep cfg
  | .fifoAdv => Laws.EncodeDomain.fifoAdv cfg
  | .outCommit => Laws.EncodeDomain.outCommit cfg

theorem decode_encode {cfg : Config} {i : Instr} {w : EventWord cfg} (h : encode cfg i = some w) :
    decode cfg w = i := by
  cases i with
  | reset => cases h; exact decode_eventWord_reset cfg rfl 0
  | idle => cases h; exact decode_eventWord_idle cfg 0
  | commit => cases h; exact decode_eventWord_commit cfg 0
  | both => cases h; exact decode_eventWord_both cfg 0
  | sample raw =>
    by_cases fits : cfg.FitsRaw raw
    · rw [encode_sample fits] at h
      cases h
      rw [decode_eventWord_sample, sext_field, wrap_of_fitsRaw fits]
    · exact absurd ((if_neg fits).symm.trans h) nofun
  | _ => cases h

/-- Settles O1: the encoder's domain is the well-formed event operations, and the decoder inverts it there. -/
theorem decodeEncodeAgree : Obligations.DecodeEncodeAgree := by
  intro cfg i event wf
  have isSome : (encode cfg i).isSome = true := by rw [encode_isSome, event, wf]; rfl
  obtain ⟨w, encoded⟩ := Option.isSome_iff_exists.mp isSome
  exact ⟨w, encoded, decode_encode encoded⟩

/-! ## What a word can spell (rules R61 to R63, R68) -/

/-- A word spells a SAMPLE only with the control bits of one, and then its operand is the signed `raw` field. -/
theorem eq_eventWord_of_decode_sample {cfg : Config} {w : EventWord cfg} {raw : Int} (h : decode cfg w = .sample raw) :
    ∃ bits : BitVec cfg.rawW, w = eventWord cfg 0b001#3 bits ∧ raw = sext bits := by
  obtain ⟨control, bits, rfl⟩ := exists_eq_eventWord w
  obtain rfl | rfl | rfl | rfl | ⟨-, rst⟩ := control_cases control
  · rw [decode_eventWord_idle] at h; cases h
  · rw [decode_eventWord_sample] at h; cases h; exact ⟨bits, rfl, rfl⟩
  · rw [decode_eventWord_commit] at h; cases h
  · rw [decode_eventWord_both] at h; cases h
  · rw [decode_eventWord_reset cfg rst] at h; cases h

theorem fitsRaw_of_decode_sample {cfg : Config} {w : EventWord cfg} {raw : Int} (h : decode cfg w = .sample raw) :
    cfg.FitsRaw raw := by
  obtain ⟨bits, -, rfl⟩ := eq_eventWord_of_decode_sample h
  exact fitsRaw_sext bits

theorem isEvent_decode (cfg : Config) (w : EventWord cfg) : (decode cfg w).isEvent = true := by
  obtain op | op | ⟨raw, op⟩ | op | op := decode_cases cfg w <;> rw [op] <;> rfl

theorem wf_decode (cfg : Config) (w : EventWord cfg) : (decode cfg w).wf cfg = true := by
  obtain op | op | ⟨raw, op⟩ | op | op := decode_cases cfg w <;> rw [op]
  · rfl
  · rfl
  · exact decide_eq_true (fitsRaw_of_decode_sample op)
  · rfl
  · rfl

/-- Settles O2: the canonical word is the one O1 gives for the decoded operation, and a SAMPLE has no ignored bit. -/
theorem encodeDecodeCanonical : Obligations.EncodeDecodeCanonical := by
  intro cfg w
  obtain ⟨v, encoded, decoded⟩ := decodeEncodeAgree cfg (decode cfg w) (isEvent_decode cfg w) (wf_decode cfg w)
  refine ⟨isEvent_decode cfg w, wf_decode cfg w, v, encoded, decoded, fun raw op => ?_⟩
  obtain ⟨bits, rfl, rfl⟩ := eq_eventWord_of_decode_sample op
  rw [op, encode_sample (fitsRaw_sext bits), field_sext] at encoded
  exact (Option.some.inj encoded).symm

/-- Settles O3: the number above the `raw` field is that of the control bits, and there is one case per row. -/
theorem decodeTable : Obligations.DecodeTable := by
  intro cfg w
  obtain ⟨control, raw, rfl⟩ := exists_eq_eventWord w
  have above : (eventWord cfg control raw).toNat / 2 ^ cfg.rawW = control.toNat := by
    rw [toNat_eventWord, Nat.mul_add_div (by positivity), Nat.div_eq_of_lt raw.isLt, Nat.add_zero]
  have below : (eventWord cfg control raw).toNat % 2 ^ cfg.rawW = raw.toNat := by
    rw [toNat_eventWord, Nat.mul_add_mod, Nat.mod_eq_of_lt raw.isLt]
  rw [above, below, wrap_toNat]
  obtain rfl | rfl | rfl | rfl | ⟨four_le, rst⟩ := control_cases control
  · exact decode_eventWord_idle cfg raw
  · exact decode_eventWord_sample cfg raw
  · exact decode_eventWord_commit cfg raw
  · exact decode_eventWord_both cfg raw
  · obtain ⟨k, number⟩ := Nat.exists_eq_add_of_le' four_le
    rw [number]
    exact decode_eventWord_reset cfg rst raw

/-- Settles O4: the rows of rule R61 other than SAMPLE do not read the `raw` field, and the canonical words are sums of
their two parts. -/
theorem ignoredBitsAndCanonicalWords : Obligations.IgnoredBitsAndCanonicalWords := by
  intro cfg
  refine ⟨?reset, ?others, ?resetWord, ?idleWord, ?commitWord, ?sampleWord⟩
  case reset => exact fun w v rstW rstV => (decode_of_rst rstW).trans (decode_of_rst rstV).symm
  case others =>
    intro w v rstW rstV sameC sameS notSample
    cases c : commitBit w with
    | true =>
      cases s : sampleBit w with
      | true => rw [decode_of_both rstW c s, decode_of_both rstV (sameC ▸ c) (sameS ▸ s)]
      | false => rw [decode_of_commit rstW c s, decode_of_commit rstV (sameC ▸ c) (sameS ▸ s)]
    | false =>
      have s : sampleBit w = false := notSample.resolve_left (by rw [c]; decide)
      rw [decode_of_neither rstW c s, decode_of_neither rstV (sameC ▸ c) (sameS ▸ s)]
  case resetWord => simp [encode_reset, toNat_eventWord, Nat.mul_comm]
  case idleWord => simp [encode_idle, toNat_eventWord]
  case commitWord => simp [encode_commit, toNat_eventWord, Nat.mul_comm]
  case sampleWord =>
    intro raw fits
    rw [encode_sample fits, Option.map_some, toNat_eventWord, toNat_field]
    simp

/-- Settles O5: the encoder's domain holds no micro-operation, and every word spells an event operation. -/
theorem microOperationsHaveNoWord : Obligations.MicroOperationsHaveNoWord := by
  intro cfg i micro
  refine ⟨?_, fun w op => ?_⟩
  · exact Option.not_isSome_iff_eq_none.mp (by simp [encode_isSome, micro])
  · have event := isEvent_decode cfg w
    rw [op, micro] at event
    cases event

/-- Settles O6: the ten words run through the decoder. -/
theorem specWordsDecode : Obligations.SpecWordsDecode := by
  unfold Obligations.SpecWordsDecode
  decide

end Sys2Proof.Machine
end

section
/-! SUPPORT. The assembler (`30_encoding.md` rules R69, R70): what a raw operand stands for, and the words of each
statement with a raw operand or a count. -/

namespace Sys2Proof.Machine

/-! ## The raw operand (rule R69) -/

theorem sampleOperand_dec {cfg : Config} {raw : Int} (fits : cfg.FitsRaw raw) :
    sampleOperand cfg (.dec raw) = some raw := if_pos fits

theorem sampleOperand_dec_refused {cfg : Config} {raw : Int} (out : ¬ cfg.FitsRaw raw) :
    sampleOperand cfg (.dec raw) = none := if_neg out

theorem sampleOperand_hex {cfg : Config} {n : Nat} (lt : n < 2 ^ cfg.rawW) :
    sampleOperand cfg (.hex n) = some (sext (BitVec.ofNat cfg.rawW n)) := if_pos lt

/-- An operand the assembler accepts is in range. -/
theorem fitsRaw_of_sampleOperand {cfg : Config} {raw : AsmNumber} {r : Int} (h : sampleOperand cfg raw = some r) :
    cfg.FitsRaw r := by
  cases raw with
  | dec i =>
    obtain ⟨fits, same⟩ := Option.ite_none_right_eq_some.mp h
    cases same
    exact fits
  | hex n =>
    obtain ⟨-, same⟩ := Option.ite_none_right_eq_some.mp h
    cases same
    exact fitsRaw_sext _

/-! ## The words of a statement -/

theorem assembleStatement_sample {cfg : Config} {raw : AsmNumber} {r : Int} (h : sampleOperand cfg raw = some r) :
    assembleStatement cfg (.sample raw) = some [eventWord cfg 0b001#3 (field cfg.rawW r)] := by
  simp [assembleStatement, h, encode_sample (fitsRaw_of_sampleOperand h)]

theorem assembleStatement_sample_refused {cfg : Config} {raw : AsmNumber} (h : sampleOperand cfg raw = none) :
    assembleStatement cfg (.sample raw) = none := by
  simp [assembleStatement, h]

theorem periodWords_eq {cfg : Config} {raw : AsmNumber} {r : Int} (h : sampleOperand cfg raw = some r) :
    periodWords cfg raw = some [eventWord cfg 0b001#3 (field cfg.rawW r), eventWord cfg 0b010#3 0] := by
  simp [periodWords, h, encode_sample (fitsRaw_of_sampleOperand h), encode_commit]

theorem runWords_eq {cfg : Config} {raw : AsmNumber} {p : List (EventWord cfg)} (h : periodWords cfg raw = some p)
    (n : Nat) : runWords cfg raw n = some (List.replicate n p).flatten := by
  induction n with
  | zero => rfl
  | succ n ih => simp [runWords, h, ih, List.replicate_succ]

/-- Settles O7: an accepted operand has a word, and RUN repeats the two words of its PERIOD. -/
theorem pseudoInstructionsExpand : Obligations.PseudoInstructionsExpand := by
  intro cfg raw count r n operand times
  refine ⟨eventWord cfg 0b001#3 (field cfg.rawW r), eventWord cfg 0b010#3 0, eventWord cfg 0b000#3 0,
    encode_sample (fitsRaw_of_sampleOperand operand), encode_commit cfg, encode_idle cfg,
    assembleStatement_sample operand, rfl, rfl, periodWords_eq operand, ?run, ?wait⟩
  case run => rw [assembleStatement, times, Option.bind_some, runWords_eq (periodWords_eq operand)]
  case wait => simp [assembleStatement, times, encode_idle]

/-- Settles O8: SAMPLE's word carries the field of its operand, and BOTH's control bits are fixed. -/
theorem assemblerSpellsOneWord : Obligations.AssemblerSpellsOneWord := by
  intro cfg
  refine ⟨?refused, ?decimal, ?hexadecimal, ?both⟩
  case refused => exact fun raw out => assembleStatement_sample_refused (sampleOperand_dec_refused out)
  case decimal =>
    exact fun raw fits => ⟨_, assembleStatement_sample (sampleOperand_dec fits), decode_encode (encode_sample fits)⟩
  case hexadecimal =>
    intro n lt
    refine ⟨_, assembleStatement_sample (sampleOperand_hex lt), ?_⟩
    rw [rawField_eventWord, field_sext, BitVec.toNat_ofNat, Nat.mod_eq_of_lt lt]
  case both => exact fun raw => ⟨_, rfl, decode_eventWord_both cfg (bothField cfg raw)⟩

end Sys2Proof.Machine
end

section
/-! SUPPORT. One step as its operation and what follows it (`30_encoding.md` rule R60, `60_exceptions.md` rule R152),
and the runs in which the contract monitor has nothing to record (`30_encoding.md` rule R71). -/

namespace Sys2Proof.Machine

/-! ## The step that consumes an input -/

theorem fetch_cons {s : State} {inp : Input} {rest : List Input} (h : s.stim = inp :: rest) :
    fetch s = some ⟨decode s.cfg (sampledWord s inp), inp.boundary, { s with stim := rest }⟩ := by
  obtain ⟨empty, -⟩ | ⟨inp', rest', cons, fetched⟩ := fetch_cases s
  · exact absurd (h.symm.trans empty) (List.cons_ne_nil inp rest)
  · cases h.symm.trans cons
    exact fetched

theorem step_of_exec_next {s t : State} {inp : Input} {rest : List Input} (h : s.stim = inp :: rest)
    (run : exec (decode s.cfg (sampledWord s inp)) { s with stim := rest } = .next t) :
    step s = .next (finishStep (decode s.cfg (sampledWord s inp)) inp.boundary t) := by
  simp only [step, fetch_cons h, run]

theorem step_of_exec_fault {s : State} {inp : Input} {rest : List Input} {r : Fault} (h : s.stim = inp :: rest)
    (run : exec (decode s.cfg (sampledWord s inp)) { s with stim := rest } = .fault r) : step s = .fault r := by
  simp only [step, fetch_cons h, run]

/-- The latch's next value as rule R152 tests for it: the boundary, then the write of `DUTY`, then the note. -/
theorem nextModAct_eq_ite (i : Instr) (boundary : Bool) (s : State) :
    nextModAct i boundary s =
      if boundary then
        if writesDuty i then Config.coincidentDuty s.stepNo
        else if s.committed then s.duty else Config.latchBeforeCommit s.stepNo
      else s.modAct := by
  obtain ⟨rfl, latch⟩ | ⟨rfl, writes, latch⟩ | ⟨rfl, writes, note, latch⟩ | ⟨rfl, writes, note, latch⟩ :=
    nextModAct_cases i boundary s <;> simp [*]

/-- Settles O9: `finishStep` field by field, for a decoded and so an event operation. -/
theorem stepRunsDecodedInstruction : Obligations.StepRunsDecodedInstruction := by
  intro s inp rest first
  refine ⟨fun t run => ?_, fun r run => step_of_exec_fault first run⟩
  rw [step_of_exec_next first run, ← nextModAct_eq_ite, ← nextCommitted_event (isEvent_decode _ _)]
  rfl

/-! ## Operations in the order the monitor expects (`60_exceptions.md` rule R143) -/

/-- From phase `ph` on, the monitor meets SAMPLE and COMMIT in turn, with IDLE anywhere and RESET starting again. -/
inductive Orderly : Phase → List Instr → Prop where
  | nil (ph : Phase) : Orderly ph []
  | reset {ph : Phase} {is : List Instr} (rest : Orderly .waitSample is) : Orderly ph (.reset :: is)
  | idle {ph : Phase} {is : List Instr} (rest : Orderly ph is) : Orderly ph (.idle :: is)
  | sample {raw : Int} {is : List Instr} (rest : Orderly .waitCommit is) : Orderly .waitSample (.sample raw :: is)
  | commit {is : List Instr} (rest : Orderly .waitSample is) : Orderly .waitCommit (.commit :: is)

/-- IDLE may stand anywhere. -/
theorem orderly_of_filter_idle {is : List Instr} :
    ∀ {ph : Phase}, Orderly ph (is.filter (fun i => i ≠ .idle)) → Orderly ph is := by
  induction is with
  | nil => exact fun h => h
  | cons i is ih =>
    intro ph h
    by_cases idle : i = .idle
    · subst idle
      exact .idle (ih (by simpa using h))
    · rw [List.filter_cons_of_pos (by simpa using idle)] at h
      cases h with
      | reset rest => exact .reset (ih rest)
      | idle => exact absurd rfl idle
      | sample rest => exact .sample (ih rest)
      | commit rest => exact .commit (ih rest)

/-- Sample periods are what the monitor expects when it waits for a SAMPLE. -/
theorem orderly_of_periodsForm (is : List Instr) (h : periodsForm is = true) : Orderly .waitSample is := by
  induction is using periodsForm.induct with
  | case1 => exact .nil _
  | case2 raw => exact .sample (.nil _)
  | case3 raw is ih => exact .sample (.commit (ih h))
  | case4 is _ _ _ => simp [periodsForm] at h

/-- A program of rule R71's form is orderly from any phase, since its first event is RESET. -/
theorem orderly_of_contractForm {is : List Instr} (h : contractForm is = true) (ph : Phase) : Orderly ph is := by
  apply orderly_of_filter_idle
  unfold contractForm at h
  split at h
  · next rest events =>
    rw [events]
    exact .reset (orderly_of_periodsForm rest h)
  · cases h

/-! ## An orderly run (`60_exceptions.md` rule R143) -/

@[simp] theorem runSample_ph (raw : Int) (s : State) : (runSample raw s).ph = s.ph := by simp [runSample]
@[simp] theorem runSample_faults (raw : Int) (s : State) : (runSample raw s).faults = s.faults := by simp [runSample]
@[simp] theorem runSample_stim (raw : Int) (s : State) : (runSample raw s).stim = s.stim := by simp [runSample]

@[simp] theorem finishStep_cfg (i : Instr) (b : Bool) (s : State) : (finishStep i b s).cfg = s.cfg := rfl
@[simp] theorem finishStep_ph (i : Instr) (b : Bool) (s : State) : (finishStep i b s).ph = s.ph := rfl
@[simp] theorem finishStep_faults (i : Instr) (b : Bool) (s : State) : (finishStep i b s).faults = s.faults := rfl
@[simp] theorem finishStep_stim (i : Instr) (b : Bool) (s : State) : (finishStep i b s).stim = s.stim := rfl

/-- The operations still to come depend on the parameters and the stimulus alone. -/
theorem stimOps_congr {s t : State} (cfg : t.cfg = s.cfg) (stim : t.stim = s.stim) : stimOps t = stimOps s := by
  unfold stimOps sampledWord
  rw [cfg, stim]

theorem stimOps_cons {s : State} {inp : Input} {rest : List Input} (h : s.stim = inp :: rest) :
    stimOps s = decode s.cfg (sampledWord s inp) :: stimOps { s with stim := rest } := by
  unfold stimOps
  rw [h]
  rfl

/-- An operation the monitor expects answers a next state without a new record. -/
theorem exec_of_orderly {i : Instr} {is : List Instr} {s : State} (h : Orderly s.ph (i :: is))
    (wf : i.wf s.cfg = true) :
    ∃ t, exec i s = .next t ∧ t.faults = s.faults ∧ Orderly t.ph is ∧ t.cfg = s.cfg ∧ t.stim = s.stim := by
  generalize phase : s.ph = ph at h
  cases h with
  | reset rest => exact ⟨_, rfl, rfl, rest, rfl, rfl⟩
  | idle rest => exact ⟨_, rfl, rfl, phase ▸ rest, rfl, rfl⟩
  | sample rest =>
    exact ⟨_, exec_sample_next_iff.mpr ⟨of_decide_eq_true wf, rfl⟩, by simp [phase], by simpa using rest, by simp,
      by simp⟩
  | commit rest =>
    exact ⟨_, rfl, by simp [phase], by simpa using rest, by simp, by simp⟩

theorem step_of_orderly {s : State} (h : Orderly s.ph (stimOps s)) :
    ∃ t, step s = .next t ∧ t.faults = s.faults ∧ Orderly t.ph (stimOps t) := by
  obtain ⟨empty, none⟩ | ⟨inp, rest, first, -⟩ := fetch_cases s
  · exact ⟨s, by simp only [step, none], rfl, h⟩
  · rw [stimOps_cons first] at h
    obtain ⟨t, run, faults, orderly, cfg, stim⟩ :=
      exec_of_orderly (s := { s with stim := rest }) h (wf_decode s.cfg _)
    refine ⟨_, step_of_exec_next first run, by simpa using faults, ?_⟩
    rw [stimOps_congr (s := { s with stim := rest }) (by simpa using cfg) (by simpa using stim)]
    simpa using orderly

theorem run_of_orderly (k : Nat) :
    ∀ {s : State}, Orderly s.ph (stimOps s) →
      ∃ t, Host.Core.run Sys2Proof.core k s = .next t ∧ t.faults = s.faults := by
  induction k with
  | zero => exact fun {s} _ => ⟨s, rfl, rfl⟩
  | succ k ih =>
    intro s h
    obtain ⟨u, stepped, faults, orderly⟩ := step_of_orderly h
    obtain ⟨t, run, faults'⟩ := ih orderly
    exact ⟨t, (run_next (M := Sys2Proof.core) stepped k).trans run, faults'.trans faults⟩

/-- Settles O55: a program of the contract's form is orderly, and an orderly run records nothing. -/
theorem contractRunsClean : Obligations.ContractRunsClean :=
  fun s form k => run_of_orderly k (orderly_of_contractForm form s.ph)

end Sys2Proof.Machine
end

section
/-! SUPPORT. The history FIFO (`40_history_fifo.md` rules R80 to R84): its three micro-operations, and how long a pushed
Sample stays. -/

namespace Sys2Proof.Machine

/-! ## FIFO.PUSH, FIFO.TAP, FIFO.ADV (rules R80, R81, R83) -/

/-- The 8-bit field that `MemRead` finds after `MemWrite` of the same slot (rule R43). -/
@[simp] theorem slotByte_memWrite_same (s : State) (a : Slot) (v : Int) : slotByte (memWrite s a v) a = field 8 v :=
  read_write_same s.buf a.toNat (field 8 v)

theorem memRead_fifoPush_same {s : State} (lower : -127 ≤ s.tmp.v) (upper : s.tmp.v ≤ 127) :
    memRead (fifoPush s) s.idx = s.tmp.v := by
  have fits : wrap 8 s.tmp.v = s.tmp.v := wrap_id (by decide) (by omega) (by omega)
  rw [fifoPush, memRead_memWrite_same, fits]

theorem memRead_fifoPush_other {s : State} {a : Slot} (ne : a ≠ s.idx) : memRead (fifoPush s) a = memRead s a :=
  memRead_memWrite_other s s.tmp.v ne

theorem memRead_range (s : State) (a : Slot) : -128 ≤ memRead s a ∧ memRead s a ≤ 127 :=
  ⟨sext_lower (slotByte s a), Int.le_sub_one_of_lt (sext_upper (slotByte s a))⟩

/-- A slot number counts modulo 128 because it has 7 bits. -/
theorem field_mod128_succ (idx : Slot) : field 7 (mod128 (zext idx + 1)) = idx + 1 := by
  apply zext_injective
  rw [zext_field_mod128, mod128_eq_emod]
  simp [zext, BitVec.toNat_add]

/-- Settles O25: FIFO.PUSH is one `MemWrite` of slot `IDX`. -/
theorem fifoPushWritesOneSlot : Obligations.FifoPushWritesOneSlot := fun s =>
  ⟨(fifoPush s).buf, rfl, memRead_fifoPush_same, slotByte_memWrite_same s s.idx s.tmp.v,
    fun _ => memRead_fifoPush_other⟩

/-- Settles O26: each tap is one `MemRead`, and a slot holds a signed byte. -/
theorem fifoTapReadsSlot : Obligations.FifoTapReadsSlot :=
  fun s => ⟨rfl, rfl, rfl, rfl, memRead_range s⟩

/-- Settles O27: the index steps by one in the arithmetic of 7 bits. -/
theorem fifoAdvWrapsIndex : Obligations.FifoAdvWrapsIndex := by
  intro s
  refine ⟨(fifoAdv s).idx, rfl, zext_field_mod128 _, field_mod128_succ s.idx, fun last => ?_⟩
  rw [fifoAdv_idx, field_mod128_succ, last]
  rfl

/-! ## Retention (rule R84) -/

theorem runOps_cons_next_iff {i : Instr} {is : List Instr} {s t : State} :
    runOps (i :: is) s = .next t ↔ ∃ u, exec i s = .next u ∧ runOps is u = .next t := by
  rw [runOps]
  cases exec i s <;> simp

/-- The history FIFO stands still between SAMPLEs (rule R123). -/
theorem fifo_unchanged_of_exec {i : Instr} {s t : State} (quiet : i = .idle ∨ i = .commit)
    (run : exec i s = .next t) : t.idx = s.idx ∧ t.buf = s.buf := by
  obtain rfl | rfl := quiet
  · have same := sameRegisters_of_exec_idle run
    exact ⟨same.idx, same.buf⟩
  · have same := sameRegisters_of_exec_commit run
    exact ⟨same.idx, same.buf⟩

/-- A SAMPLE makes the slot of age `j` one older and, below age 128, leaves its entry. -/
theorem memRead_aged_of_exec_sample {raw : Int} {s t : State} (run : exec (.sample raw) s = .next t) {j : Int}
    (pos : 1 ≤ j) (below : j ≤ 127) :
    indexPlus t.idx (-(j + 1)) = indexPlus s.idx (-j) ∧
      memRead t (indexPlus s.idx (-j)) = memRead s (indexPlus s.idx (-j)) := by
  have same := sameRegisters_of_exec_sample run
  constructor
  · rw [same.idx, runSample_idx, indexPlus_advanced_succ]
  · rw [memRead_congr same.buf, memRead_runSample_other raw (indexPlus_neg_ne s.idx pos below)]

/-- The slot of age `j` keeps its entry while a run's SAMPLEs bring its age to no more than 128. -/
theorem memRead_aged_of_runOps {t : State} (ops : List Instr) :
    ∀ {s : State} {j : Int}, (∀ i ∈ ops, i = .idle ∨ i = .commit ∨ ∃ raw, i = .sample raw) → 1 ≤ j →
      j + ops.countP (fun i => i ≠ .idle && i ≠ .commit) ≤ 128 → runOps ops s = .next t →
      memRead t (indexPlus s.idx (-j)) = memRead s (indexPlus s.idx (-j)) := by
  induction ops with
  | nil =>
    intro s j _ _ _ run
    cases run
    rfl
  | cons i is ih =>
    intro s j allowed pos room run
    obtain ⟨first, rest⟩ := List.forall_mem_cons.mp allowed
    obtain ⟨u, head, tail⟩ := runOps_cons_next_iff.mp run
    obtain quiet | ⟨raw, rfl⟩ := or_assoc.mpr first
    · obtain ⟨idx, buf⟩ := fifo_unchanged_of_exec quiet head
      rw [List.countP_cons_of_neg (by simpa [or_iff_not_imp_left] using quiet)] at room
      have kept := ih rest pos room tail
      rwa [idx, memRead_congr buf] at kept
    · have older : j + 1 + is.countP (fun i => i ≠ .idle && i ≠ .commit) ≤ 128 := by
        rw [List.countP_cons_of_pos (by simp)] at room
        omega
      obtain ⟨slot, entry⟩ := memRead_aged_of_exec_sample head pos (by omega)
      have kept := ih rest (by omega) older tail
      rwa [slot, entry] at kept

/-- Settles O43: the slot last pushed has age 1, and 127 SAMPLEs bring it to age 128. -/
theorem pushedSampleRetained : Obligations.PushedSampleRetained := by
  intro s t ops allowed few run
  exact memRead_aged_of_runOps ops allowed le_rfl (by omega) run

end Sys2Proof.Machine
end

section
/-! SUPPORT. The DC filter (`41_dc_filter.md` rules R90 to R97): its four micro-operations, the leak as a map of
integers (the `g` of rule R95) that moves every value monotonically toward a resting value, and where its iterates end. -/

namespace Sys2Proof.Machine

/-! ## The leak as a map of integers (rules R92, R95, R96) -/

/-- `g(y) = y - asr(y, K)` of rule R95: what one period of a constant input makes of the output. -/
def leaked (k : Nat) (y : Int) : Int := y - asr y k

theorem wrap_leaked {n : Nat} (k : Nat) {y : Int} (hn : 0 < n) (lower : -(2 ^ (n - 1)) ≤ y) (upper : y < 2 ^ (n - 1)) :
    wrap n (leaked k y) = leaked k y := by
  have shifted := asr_between_zero_and y k
  unfold leaked
  exact wrap_id hn (by omega) (by omega)

theorem leaked_noShift (y : Int) : leaked 0 y = 0 := by
  simp [leaked, asr]

/-- The integers 0 to `2^K - 1` are fixed: their leak term is 0. -/
theorem leaked_of_resting {k : Nat} {y : Int} (nonneg : 0 ≤ y) (below : y ≤ 2 ^ k - 1) : leaked k y = y := by
  have shifted : asr y k = 0 := Int.ediv_eq_zero_of_lt nonneg (by omega)
  rw [leaked, shifted, Int.sub_zero]

/-- The shift grows no faster than its operand, so the leak keeps the order of outputs. -/
theorem leaked_monotone (k : Nat) : Monotone (leaked k) := by
  intro a b le
  have pos : (0 : Int) < 2 ^ k := by positivity
  have grown : b ≤ a + (b - a) * 2 ^ k := by nlinarith
  have shifted : asr b k ≤ asr a k + (b - a) :=
    calc asr b k ≤ (a + (b - a) * 2 ^ k) / 2 ^ k := Int.ediv_le_ediv pos grown
      _ = asr a k + (b - a) := Int.add_mul_ediv_right _ _ pos.ne'
  unfold leaked
  omega

theorem leaked_above {k : Nat} {y : Int} (above : 2 ^ k ≤ y) : leaked k y < y ∧ 2 ^ k - 1 ≤ leaked k y := by
  have pos : (0 : Int) < 2 ^ k := by positivity
  constructor
  · have shifted : 1 ≤ asr y k := (Int.le_ediv_iff_mul_le pos).mpr (by omega)
    unfold leaked
    omega
  · calc (2 : Int) ^ k - 1 = leaked k (2 ^ k) := by rw [leaked, asr, Int.ediv_self pos.ne']
      _ ≤ leaked k y := leaked_monotone k above

theorem leaked_negative {y : Int} (k : Nat) (neg : y < 0) : y < leaked k y ∧ leaked k y ≤ 0 := by
  have shifted := asr_neg k neg
  unfold leaked
  omega

theorem leaked_nonneg {y : Int} (k : Nat) (nonneg : 0 ≤ y) : 0 ≤ leaked k y ∧ leaked k y ≤ y := by
  have shifted := asr_nonneg k nonneg
  unfold leaked
  omega

/-- Rule R92's lower bound `t * (1 - 2^-K)`, multiplied out. -/
theorem mul_le_leaked_mul (k : Nat) (y : Int) : y * (2 ^ k - 1) ≤ leaked k y * 2 ^ k := by
  obtain ⟨floor, -⟩ := asr_floor y k
  unfold leaked
  linarith

/-! ## Where the iterates of the leak end (rule R96) -/

/-- The value at which an output comes to rest under a constant input (rule R96). -/
def restOf (k : Nat) (y : Int) : Int :=
  if 2 ^ k ≤ y then 2 ^ k - 1 else if y < 0 then 0 else y

/-- An output is above the resting range, below it, or at rest in it. -/
theorem restOf_cases (k : Nat) (y : Int) :
    (2 ^ k ≤ y ∧ restOf k y = 2 ^ k - 1) ∨ (y < 0 ∧ restOf k y = 0) ∨
      (0 ≤ y ∧ y ≤ 2 ^ k - 1 ∧ restOf k y = y) := by
  have pos : (0 : Int) < 2 ^ k := by positivity
  unfold restOf
  split
  · exact .inl ⟨by assumption, rfl⟩
  · split <;> omega

theorem restOf_leaked (k : Nat) (y : Int) : restOf k (leaked k y) = restOf k y := by
  have pos : (0 : Int) < 2 ^ k := by positivity
  obtain ⟨above, rest⟩ | ⟨neg, rest⟩ | ⟨nonneg, below, -⟩ := restOf_cases k y
  · have moved := leaked_above above
    have := restOf_cases k (leaked k y)
    omega
  · have moved := leaked_negative k neg
    have := restOf_cases k (leaked k y)
    omega
  · rw [leaked_of_resting nonneg below]

theorem leaked_restOf (k : Nat) (y : Int) : leaked k (restOf k y) = restOf k y := by
  have pos : (0 : Int) < 2 ^ k := by positivity
  have := restOf_cases k y
  exact leaked_of_resting (by omega) (by omega)

/-- Outside the resting range each period brings the output closer to 0, so its distance from 0 bounds their number. -/
theorem iterate_leaked_of_natAbs_le {k n : Nat} : ∀ {y : Int}, y.natAbs ≤ n → (leaked k)^[n] y = restOf k y := by
  induction n with
  | zero =>
    intro y dist
    have pos : (0 : Int) < 2 ^ k := by positivity
    have := restOf_cases k y
    rw [Function.iterate_zero_apply]
    omega
  | succ n ih =>
    intro y dist
    have pos : (0 : Int) < 2 ^ k := by positivity
    obtain ⟨above, -⟩ | ⟨neg, -⟩ | ⟨nonneg, below, rest⟩ := restOf_cases k y
    · have moved := leaked_above above
      rw [Function.iterate_succ_apply, ih (by omega), restOf_leaked]
    · have moved := leaked_negative k neg
      rw [Function.iterate_succ_apply, ih (by omega), restOf_leaked]
    · rw [rest, Function.iterate_fixed (leaked_of_resting nonneg below)]

theorem iterate_leaked_of_le {k m n : Nat} {y : Int} (rested : (leaked k)^[m] y = restOf k y) (le : m ≤ n) :
    (leaked k)^[n] y = restOf k y := by
  obtain ⟨more, rfl⟩ := Nat.exists_eq_add_of_le' le
  rw [Function.iterate_add_apply, rested, Function.iterate_fixed (leaked_restOf k y)]

/-- The leak is monotone and the two ends of the resting range are fixed, so what lies between two outputs that have
come to rest has come to rest. -/
theorem iterate_leaked_between {k n : Nat} {a b y : Int} (lower : a ≤ y) (upper : y ≤ b)
    (restA : (leaked k)^[n] a = restOf k a) (restB : (leaked k)^[n] b = restOf k b) :
    (leaked k)^[n] y = restOf k y := by
  have pos : (0 : Int) < 2 ^ k := by positivity
  have mono := (leaked_monotone k).iterate n
  obtain ⟨above, rest⟩ | ⟨neg, rest⟩ | ⟨nonneg, below, rest⟩ := restOf_cases k y
  · have bottom : (leaked k)^[n] (2 ^ k - 1) = 2 ^ k - 1 :=
      Function.iterate_fixed (leaked_of_resting (by omega) le_rfl) n
    have fromBelow : (leaked k)^[n] (2 ^ k - 1) ≤ (leaked k)^[n] y := mono (by omega)
    have fromAbove := mono upper
    have := restOf_cases k b
    omega
  · have top : (leaked k)^[n] 0 = 0 := Function.iterate_fixed (leaked_of_resting le_rfl (by omega)) n
    have fromAbove : (leaked k)^[n] y ≤ (leaked k)^[n] 0 := mono (by omega)
    have fromBelow := mono lower
    have := restOf_cases k a
    omega
  · rw [rest, Function.iterate_fixed (leaked_of_resting nonneg below)]

/-- Rule R96's figure at `K = 4`: the two extreme reachable outputs need 51 periods. -/
theorem iterate_leaked_four {y : Int} (lower : -225 ≤ y) (upper : y ≤ 240) : (leaked 4)^[51] y = restOf 4 y :=
  iterate_leaked_between lower upper (by simp [leaked, asr, restOf]) (by simp [leaked, asr, restOf])

/-! ## A constant input (rules R95, R96) -/

theorem readY_accW_range (s : State) : -(2 ^ (s.cfg.accW - 1)) ≤ readY s ∧ readY s < 2 ^ (s.cfg.accW - 1) :=
  ⟨sext_lower s.y, sext_upper s.y⟩

theorem accW_pos (cfg : Config) : 0 < cfg.accW := by
  obtain ⟨-, ⟨wider, -⟩, -⟩ := cfg.legal
  omega

/-- With `delta = 0` a SAMPLE is one leak of `Y`, and no wrap acts from any state. -/
theorem runSample_y_constant (s : State) : readY (runSample (readXCur s) s) = leaked s.cfg.leakShift (readY s) := by
  have fits : s.cfg.FitsRaw (readXCur s) := fitsRaw_sext s.xCur
  obtain ⟨lower, upper⟩ := readY_accW_range s
  have sum : wrap s.cfg.accW (readY s + (readXCur s - readXCur s)) = readY s := by
    rw [Int.sub_self, Int.add_zero, wrap_id (accW_pos s.cfg) lower upper]
  rw [runSample_y fits, sum]
  exact wrap_leaked s.cfg.leakShift (accW_pos s.cfg) lower upper

/-- A SAMPLE of the present reading is never refused: it leaks `Y` once and leaves the reading as it is. -/
theorem exec_sample_constant (s : State) :
    ∃ u, exec (.sample (readXCur s)) s = .next u ∧ u.cfg = s.cfg ∧ readXCur u = readXCur s ∧
      readY u = leaked s.cfg.leakShift (readY s) := by
  have fits : s.cfg.FitsRaw (readXCur s) := fitsRaw_sext s.xCur
  have run := exec_sample_next_iff.mpr ⟨fits, rfl⟩
  have same := sameRegisters_of_exec_sample run
  exact ⟨_, run, same.cfg.trans (runSample_cfg _ s), same.xCur.trans (runSample_xCur fits),
    same.y.trans (runSample_y_constant s)⟩

/-- Of the operations under a constant input only SAMPLE moves the output, and none moves the reading. -/
theorem exec_constant {i : Instr} {s : State} (allowed : i = .idle ∨ i = .commit ∨ i = .sample (readXCur s)) :
    ∃ u, exec i s = .next u ∧ u.cfg = s.cfg ∧ readXCur u = readXCur s ∧
      readY u = (leaked s.cfg.leakShift)^[if i ≠ .idle && i ≠ .commit then 1 else 0] (readY s) := by
  obtain rfl | rfl | rfl := allowed
  · have same := sameRegisters_of_exec_idle (s := s) rfl
    exact ⟨_, rfl, same.cfg, same.xCur, same.y⟩
  · have same := sameRegisters_of_exec_commit (s := s) rfl
    exact ⟨_, rfl, same.cfg, same.xCur, same.y⟩
  · simpa using exec_sample_constant s

/-- Operations under a constant input never stop the machine, and the output is the old one leaked once for each
SAMPLE. -/
theorem runOps_constant (ops : List Instr) :
    ∀ {s : State}, (∀ i ∈ ops, i = .idle ∨ i = .commit ∨ i = .sample (readXCur s)) →
      ∃ t, runOps ops s = .next t ∧
        readY t = (leaked s.cfg.leakShift)^[ops.countP (fun i => i ≠ .idle && i ≠ .commit)] (readY s) := by
  induction ops with
  | nil => exact fun {s} _ => ⟨s, rfl, rfl⟩
  | cons i is ih =>
    intro s allowed
    obtain ⟨first, rest⟩ := List.forall_mem_cons.mp allowed
    obtain ⟨u, head, cfg, xCur, y⟩ := exec_constant first
    obtain ⟨t, tail, out⟩ := ih (s := u) (by rwa [xCur])
    refine ⟨t, runOps_cons_next_iff.mpr ⟨u, head, tail⟩, ?_⟩
    rw [out, cfg, y, List.countP_cons, Function.iterate_add_apply]

/-- Settles O57: a run iterates the leak, whose iterates end at `restOf`. -/
theorem constantInputComesToRest : Obligations.ConstantInputComesToRest := by
  intro s ops n allowed count enough
  obtain ⟨t, run, out⟩ := runOps_constant ops allowed
  refine ⟨t, run, ?_⟩
  rw [out, ← count]
  obtain dist | ⟨shift, lower, upper, periods⟩ := enough
  · exact iterate_leaked_of_natAbs_le dist
  · rw [shift]
    exact iterate_leaked_of_le (iterate_leaked_four lower upper) periods

/-- Settles O37: the period is one leak of the output. -/
theorem constantInputMovesTowardRest : Obligations.ConstantInputMovesTowardRest := by
  intro s t run
  have same := sameRegisters_of_exec_sample run
  rw [same.y, runSample_y_constant]
  exact ⟨leaked_above, leaked_of_resting, leaked_negative s.cfg.leakShift⟩

/-! ## The integrator form (rules R95, R97) -/

/-- Settles O38: within the bounds the filter's wraps do not act, and SAMPLE keeps the bounds. -/
theorem integratorFormWithoutWrap : Obligations.IntegratorFormWithoutWrap := by
  intro s t raw bounds run
  obtain ⟨fits, -⟩ := exec_sample_next_iff.mp run
  have same := sameRegisters_of_exec_sample run
  obtain ⟨sumLower, sumUpper⟩ := bounds.add_raw_range fits
  obtain ⟨outLower, outUpper⟩ := (runSample_bounds bounds fits).readY_range
  rw [runSample_cfg] at outLower outUpper
  rw [same.y, same.xCur]
  exact ⟨runSample_z bounds fits, sumLower, sumUpper, outLower, outUpper⟩

/-! ## The micro-operations (rules R90 to R93) -/

/-- Settles O36: the leaked value lies between `t` and 0, so it fits where `t` did. -/
theorem leakMovesTowardZero : Obligations.LeakMovesTowardZero := by
  intro s t lower upper run
  cases run
  have out : readY (dcbLeak s) = leaked s.cfg.leakShift s.tmp.t :=
    wrap_leaked s.cfg.leakShift (accW_pos s.cfg) lower (Int.lt_of_le_sub_one upper)
  rw [out]
  refine ⟨rfl, leaked_nonneg _, fun _ => mul_le_leaked_mul _ _, leaked_negative _, fun noShift => ?_⟩
  rw [noShift, leaked_noShift]

/-- Settles O21: the field of `X_CUR` holds every operand in range exactly. -/
theorem dcbShiftMovesReadings : Obligations.DcbShiftMovesReadings :=
  fun s => ⟨field s.cfg.rawW s.tmp.raw, rfl, sext_field _ _, wrap_of_fitsRaw⟩

/-- The difference of two readings takes `RAW_W + 1` bits (rule R91). -/
theorem reading_sub_range (s : State) :
    -(2 ^ s.cfg.rawW - 1) ≤ readXCur s - readXPrev s ∧ readXCur s - readXPrev s ≤ 2 ^ s.cfg.rawW - 1 := by
  obtain ⟨curLow, curHigh⟩ : s.cfg.FitsRaw (readXCur s) := fitsRaw_sext s.xCur
  obtain ⟨prevLow, prevHigh⟩ : s.cfg.FitsRaw (readXPrev s) := fitsRaw_sext s.xPrev
  rw [two_pow_rawW]
  omega

/-- Settles O22: the transfer is the definition, and the difference of two readings is bounded. -/
theorem dcbAccAddsDifference : Obligations.DcbAccAddsDifference :=
  fun s => ⟨rfl, reading_sub_range s⟩

/-- Settles O23: `asr` is the division that the statement writes out. -/
theorem dcbLeakSubtractsShift : Obligations.DcbLeakSubtractsShift :=
  fun s => ⟨(dcbLeak s).y, rfl, dcbLeak_y s⟩

theorem sat127_eq_max_min (i : Int) : sat127 i = max (-127) (min 127 i) := by
  unfold sat127 Config.satMax Config.satMin
  split <;> [skip; split] <;> omega

/-- Settles O24: the clip is a maximum of a minimum. -/
theorem dcbNarrowClips : Obligations.DcbNarrowClips := by
  intro s
  rw [← sat127_eq_max_min]
  rfl

end Sys2Proof.Machine
end

section
/-! SUPPORT. The chorus delay engine (`42_chorus.md` rules R100 to R111): slots as offsets from `IDX`, the four tap
addresses and their ages, the clipped sum, and the slow counter along a run. -/

namespace Sys2Proof.Machine

/-! ## Slots by their offset from `IDX` -/

theorem eq_iff_zext_eq {n : Nat} {v w : BitVec n} : v = w ↔ zext v = zext w := ⟨congrArg zext, zext_injective⟩

/-- `mod128` leaves a slot number alone. -/
theorem mod128_zext (a : Slot) : mod128 (zext a) = zext a := by
  obtain ⟨lower, upper⟩ := zext_range a
  exact (mod128_eq_emod _).trans (Int.emod_eq_of_lt lower upper)

theorem indexPlus_zero (idx : Slot) : indexPlus idx 0 = idx := by
  rw [eq_iff_zext_eq, zext_indexPlus, Int.add_zero, mod128_zext]

/-- The low 7 bits of the offset decide the slot. -/
theorem indexPlus_eq_iff (idx : Slot) (a b : Int) : indexPlus idx a = indexPlus idx b ↔ (a - b) % 128 = 0 := by
  rw [eq_iff_zext_eq, zext_indexPlus, zext_indexPlus, mod128_eq_emod, mod128_eq_emod]
  omega

theorem indexPlus_eq_self_iff (idx : Slot) (off : Int) : indexPlus idx off = idx ↔ off % 128 = 0 := by
  simpa only [indexPlus_zero, Int.sub_zero] using indexPlus_eq_iff idx off 0

/-- The age (`20_memory.md` rule R52) of the slot at an offset is the offset's negative, whatever `IDX` is. -/
theorem age_indexPlus (idx : Slot) (off : Int) : mod128 (zext idx - zext (indexPlus idx off)) = -off % 128 := by
  rw [zext_indexPlus, mod128_eq_emod, mod128_eq_emod]
  omega

/-! ## The four tap addresses (rules R100 to R103, R107, R110) -/

theorem zext_indexPlus_of_eq {idx : Slot} {off i : Int} (h : zext idx + off = i) :
    zext (indexPlus idx off) = mod128 i := by
  rw [zext_indexPlus, h]

/-- Settles O28: each form is `IDX` plus its offset, in the order of the rule's sum. -/
theorem choAddrFormsSlots : Obligations.ChoAddrFormsSlots := fun s =>
  ⟨⟨indexPlus s.idx (zext s.d), zext_indexPlus _ _, rfl⟩,
    ⟨indexPlus s.idx (-zext s.d + 1), zext_indexPlus_of_eq (by ring), rfl⟩,
    ⟨indexPlus s.idx (zext s.d + 64), zext_indexPlus_of_eq (by ring), rfl⟩,
    ⟨indexPlus s.idx (-zext s.d + 1 + 64), zext_indexPlus_of_eq (by ring), rfl⟩⟩

/-- The four address operations in a row: none reads what another writes (rule R109). -/
theorem runOps_choAddr (s : State) :
    ∃ t, runOps [.choAddrA, .choAddrB, .choAddrC, .choAddrD] s = .next t ∧
      t.tmp.addrA = indexPlus s.idx (zext s.d) ∧ t.tmp.addrB = indexPlus s.idx (-zext s.d + 1) ∧
      t.tmp.addrC = indexPlus s.idx (zext s.d + 64) ∧ t.tmp.addrD = indexPlus s.idx (-zext s.d + 1 + 64) :=
  ⟨choAddrD (choAddrC (choAddrB (choAddrA s))), rfl, rfl, rfl, rfl, rfl⟩

/-- The offset of tap A or C is not that of tap B or D: they differ by an odd number. -/
theorem indexPlus_ne_of_odd (idx : Slot) {a b : Int} (odd : (a - b) % 2 = 1) : indexPlus idx a ≠ indexPlus idx b := by
  rw [ne_eq, indexPlus_eq_iff]
  omega

/-- The two taps of a pair are half a buffer apart. -/
theorem indexPlus_ne_add_half (idx : Slot) (a : Int) : indexPlus idx a ≠ indexPlus idx (a + 64) := by
  rw [ne_eq, indexPlus_eq_iff]
  omega

theorem tapAddresses_nodup (idx : Slot) (d : Int) :
    [indexPlus idx d, indexPlus idx (-d + 1), indexPlus idx (d + 64), indexPlus idx (-d + 1 + 64)].Nodup := by
  have ab : indexPlus idx d ≠ indexPlus idx (-d + 1) := indexPlus_ne_of_odd idx (by omega)
  have ad : indexPlus idx d ≠ indexPlus idx (-d + 1 + 64) := indexPlus_ne_of_odd idx (by omega)
  have bc : indexPlus idx (-d + 1) ≠ indexPlus idx (d + 64) := indexPlus_ne_of_odd idx (by omega)
  have cd : indexPlus idx (d + 64) ≠ indexPlus idx (-d + 1 + 64) := indexPlus_ne_of_odd idx (by omega)
  simp [ab, ad, bc, cd, indexPlus_ne_add_half]

/-- Settles O40: the offsets differ by 64 within a pair and by an odd number across, and `D` is 0 to 63. -/
theorem tapAddressesDistinct : Obligations.TapAddressesDistinct := by
  intro s
  obtain ⟨t, run, a, b, c, d⟩ := runOps_choAddr s
  obtain ⟨lower, upper⟩ : 0 ≤ zext s.d ∧ zext s.d < 64 := zext_range s.d
  refine ⟨t, run, ?_⟩
  rw [a, b, c, d]
  refine ⟨tapAddresses_nodup s.idx (zext s.d), ?tapA, ?tapB, ?tapC, ?tapD⟩
  case tapA =>
    rw [indexPlus_eq_self_iff, eq_iff_zext_eq, show zext (0 : Counter) = 0 from rfl]
    omega
  case tapB =>
    rw [indexPlus_eq_self_iff, eq_iff_zext_eq, show zext (1 : Counter) = 1 from rfl]
    omega
  case tapC =>
    rw [ne_eq, indexPlus_eq_self_iff]
    omega
  case tapD =>
    rw [ne_eq, indexPlus_eq_self_iff]
    omega

/-- Settles O41: each age is the negative of the tap's offset modulo 128, by the two columns of rule R107's table. -/
theorem tapAges : Obligations.TapAges := by
  intro s
  obtain ⟨t, run, a, b, c, d⟩ := runOps_choAddr s
  obtain ⟨lower, upper⟩ : 0 ≤ zext s.d ∧ zext s.d < 64 := zext_range s.d
  have atZero : s.d = 0 ↔ zext s.d = 0 := eq_iff_zext_eq
  refine ⟨t, run, ?_⟩
  rw [a, b, c, d]
  simp only [age_indexPlus, atZero]
  by_cases zero : zext s.d = 0
  · simp [zero]
  · rw [if_neg zero, if_neg zero]
    omega

/-! ## CHO.SUM and CHO.SAT (rules R104, R105, R111) -/

/-- Settles O29: the transfer is the definition, and each of the four entries is a signed byte. -/
theorem choSumIsExact : Obligations.ChoSumIsExact := by
  refine ⟨fun _ => rfl, fun s a b c d => ?_⟩
  have rangeA := memRead_range s a
  have rangeB := memRead_range s b
  have rangeC := memRead_range s c
  have rangeD := memRead_range s d
  refine ⟨by omega, by omega, fun noMin => ?_⟩
  have := noMin a
  have := noMin b
  have := noMin c
  have := noMin d
  omega

/-- The clip moves no value across zero. -/
theorem sign_clip (i : Int) : (max (-127) (min 127 i)).sign = i.sign := by
  obtain neg | rfl | pos := lt_trichotomy i 0
  · rw [Int.sign_eq_neg_one_of_neg neg, Int.sign_eq_neg_one_of_neg (by omega)]
  · rfl
  · rw [Int.sign_eq_one_of_pos pos, Int.sign_eq_one_of_pos (by omega)]

/-- Settles O30: the clip is `sat127`, which keeps the sign. -/
theorem choSatClips : Obligations.ChoSatClips := by
  intro s
  refine ⟨?_, sign_clip s.tmp.s⟩
  rw [← sat127_eq_max_min]
  rfl

/-! ## LFO.STEP and the sweep (rules R106, R108) -/

/-- Settles O33: the two cases of the slow counter. -/
theorem lfoStepCounts : Obligations.LfoStepCounts := by
  intro s
  refine ⟨(lfoStep s).d, (lfoStep s).sub, rfl, ?_⟩
  rw [lfoStep_d, lfoStep_sub]
  obtain ⟨full, sub, d⟩ | ⟨count, sub, d⟩ := lfoNext_cases s.cfg s.sub s.d
  · exact ⟨fun _ => ⟨congrArg BitVec.toNat sub, d⟩, fun count => absurd full (Nat.not_le.mpr count)⟩
  · exact ⟨fun full => absurd full (Nat.not_le.mpr count), fun _ => ⟨sub, d⟩⟩

/-- The slow counter and the index as `n` SAMPLEs leave them, from counters of 0 and the index `start`. -/
structure State.SweepAt (start : Slot) (n : Nat) (s : State) : Prop where
  sub : s.sub.toNat = n % s.cfg.chorusPeriod
  d : s.d.toNat = n / s.cfg.chorusPeriod % s.cfg.chorusPeriod
  idx : zext s.idx = mod128 (zext start + n)

theorem State.SweepAt.frame {start : Slot} {n : Nat} {s t : State} (same : SameRegisters s t) (h : s.SweepAt start n) :
    t.SweepAt start n where
  sub := by rw [same.sub, same.cfg, h.sub]
  d := by rw [same.d, same.cfg, h.d]
  idx := by rw [same.idx, h.idx]

theorem sweepAt_zero {s : State} (hd : s.d = 0) (hsub : s.sub = 0) : s.SweepAt s.idx 0 where
  sub := by rw [hsub, Nat.zero_mod]; rfl
  d := by rw [hd, Nat.zero_div, Nat.zero_mod]; rfl
  idx := by rw [Nat.cast_zero, Int.add_zero, mod128_zext]

theorem runSample_sweepAt {start : Slot} {n : Nat} {s : State} (raw : Int) (h : s.SweepAt start n) :
    (runSample raw s).SweepAt start (n + 1) := by
  obtain ⟨sub, d⟩ := lfoNext_count s.cfg h.sub h.d
  refine ⟨by simpa using sub, by simpa using d, ?_⟩
  rw [runSample_idx, zext_field_mod128, h.idx]
  simp only [mod128_eq_emod]
  omega

/-- Of SAMPLE, COMMIT and IDLE none stops the machine on operands in range, and SAMPLE alone moves the sweep. -/
theorem exec_sweepAt {start : Slot} {n : Nat} {i : Instr} {s : State} (h : s.SweepAt start n)
    (allowed : i = .idle ∨ i = .commit ∨ ∃ raw, i = .sample raw ∧ s.cfg.FitsRaw raw) :
    ∃ u, exec i s = .next u ∧ u.cfg = s.cfg ∧ u.SweepAt start (n + if i ≠ .idle && i ≠ .commit then 1 else 0) := by
  obtain rfl | rfl | ⟨raw, rfl, fits⟩ := allowed
  · have same := sameRegisters_of_exec_idle (s := s) rfl
    exact ⟨_, rfl, same.cfg, h.frame same⟩
  · have same := sameRegisters_of_exec_commit (s := s) rfl
    exact ⟨_, rfl, same.cfg, State.SweepAt.frame same ⟨h.sub, h.d, h.idx⟩⟩
  · have run := exec_sample_next_iff.mpr ⟨fits, rfl⟩
    have same := sameRegisters_of_exec_sample run
    exact ⟨_, run, same.cfg.trans (runSample_cfg raw s), (runSample_sweepAt raw h).frame same⟩

/-- A run moves the sweep by the number of its SAMPLEs. -/
theorem runOps_sweepAt {start : Slot} (ops : List Instr) :
    ∀ {n : Nat} {s : State}, s.SweepAt start n →
      (∀ i ∈ ops, i = .idle ∨ i = .commit ∨ ∃ raw, i = .sample raw ∧ s.cfg.FitsRaw raw) →
      ∃ t, runOps ops s = .next t ∧ t.cfg = s.cfg ∧
        t.SweepAt start (n + ops.countP (fun i => i ≠ .idle && i ≠ .commit)) := by
  induction ops with
  | nil => exact fun {_ s} h _ => ⟨s, rfl, rfl, h⟩
  | cons i is ih =>
    intro n s h allowed
    obtain ⟨first, rest⟩ := List.forall_mem_cons.mp allowed
    obtain ⟨u, head, cfg, next⟩ := exec_sweepAt h first
    obtain ⟨t, tail, cfg', last⟩ := ih next (by rwa [cfg])
    refine ⟨t, runOps_cons_next_iff.mpr ⟨u, head, tail⟩, cfg'.trans cfg, ?_⟩
    rwa [List.countP_cons, Nat.add_comm (is.countP _), ← Nat.add_assoc]

/-- The two counters are the digits of `n mod P * P` in base `P`. -/
theorem State.SweepAt.home_iff {start : Slot} {n : Nat} {s : State} (h : s.SweepAt start n) :
    s.d = 0 ∧ s.sub = 0 ↔ s.cfg.chorusPeriod * s.cfg.chorusPeriod ∣ n := by
  obtain ⟨-, -, -, pos, -⟩ := s.cfg.legal
  have zero_iff (v : Counter) : v = 0 ↔ v.toNat = 0 := BitVec.toNat_eq
  rw [Nat.dvd_iff_mod_eq_zero, Nat.mod_mul, ← h.sub, ← h.d, Nat.add_eq_zero_iff, Nat.mul_eq_zero,
    or_iff_right (by omega), zero_iff, zero_iff, and_comm]

/-- Settles O42: the run moves the sweep from where 0 SAMPLEs leave it to where `n` do. -/
theorem sweepAfterSamples : Obligations.SweepAfterSamples := by
  intro s ops n allowed count hd hsub
  obtain ⟨t, run, cfg, sweep⟩ := runOps_sweepAt ops (sweepAt_zero hd hsub) allowed
  rw [Nat.zero_add, ← count] at sweep
  refine ⟨t, run, ?_⟩
  rw [← cfg]
  exact ⟨sweep.sub, sweep.d, sweep.home_iff, sweep.idx⟩

end Sys2Proof.Machine
end

section
/-! SUPPORT. The sampling cycle (`43_sample_cycle.md` rules R115 to R123): SAMPLE as its table and as one transition, and
which operation may change which register. -/

namespace Sys2Proof.Machine

/-! ## IDLE, ADC.TRIG and the table of SAMPLE (rules R116, R119, R121) -/

/-- Settles O13: IDLE drives the port and does nothing else. -/
theorem idleChangesNothing : Obligations.IdleChangesNothing := fun _ => rfl

/-- Settles O20: an operand in range is not refused, and the transfer is the definition. -/
theorem adcTrigTakesOperand : Obligations.AdcTrigTakesOperand :=
  fun _ _ fits => exec_adcTrig_next_iff.mpr ⟨fits, rfl⟩

/-- Of the table's operations the first alone can refuse; the others run in the order of `runSample`. -/
theorem runOps_sampleTable {raw : Int} {s : State} (fits : s.cfg.FitsRaw raw) :
    runOps ((sampleTable raw).map Prod.snd) s = .next (runSample raw s) :=
  runOps_cons_next_iff.mpr ⟨adcTrig raw s, exec_adcTrig_next_iff.mpr ⟨fits, rfl⟩, rfl⟩

/-- Settles O15: the table ends in `runSample`, from which SAMPLE goes on. -/
theorem sampleRunsTheTable : Obligations.SampleRunsTheTable :=
  fun s raw fits =>
    ⟨rfl, runSample raw s, runOps_sampleTable fits, exec_sample_next_iff.mpr ⟨fits, rfl⟩⟩

/-! ## What SAMPLE does not read (rule R115) -/

/-- The micro-operations write `X_PREV`, `PEND`, `adc_start` and every temporary before any of them is read. -/
theorem runSample_of_deadState (raw : Int) (s : State) (p : BitVec s.cfg.rawW) (v : Byte) (b : Bool) (m : Temps) :
    runSample raw { s with xPrev := p, pend := v, adcStart := b, tmp := m } = runSample raw s := rfl

theorem exec_sample (raw : Int) (s : State) :
    exec (.sample raw) s =
      if s.cfg.FitsRaw raw then .next (monitorSample (dropTemps (runSample raw s))) else .refused .operandRange := rfl

/-- Settles O39: whether SAMPLE is refused depends on the parameters alone, and its answer on `runSample`. -/
theorem sampleIgnoresDeadState : Obligations.SampleIgnoresDeadState := by
  intro s raw p v b m
  rw [exec_sample, exec_sample, runSample_of_deadState]

/-! ## What no operation changes (logs 2, 4 and 7) -/

/-- `t` has the parameters of `s` and its fields that the step moves and no operation does. -/
structure SameStepFields (s t : State) : Prop where
  cfg : t.cfg = s.cfg
  modAct : t.modAct = s.modAct
  committed : t.committed = s.committed
  stepNo : t.stepNo = s.stepNo
  stim : t.stim = s.stim

theorem sameStepFields_of_exec {i : Instr} {s t : State} (run : exec i s = .next t) : SameStepFields s t := by
  cases i with
  | sample raw =>
    obtain ⟨-, rfl⟩ := exec_sample_next_iff.mp run
    constructor <;> simp [runSample]
  | adcTrig raw =>
    obtain ⟨-, rfl⟩ := exec_adcTrig_next_iff.mp run
    exact ⟨rfl, rfl, rfl, rfl, rfl⟩
  | both => exact nomatch run
  | _ =>
    cases run
    exact ⟨rfl, rfl, rfl, rfl, rfl⟩

/-! ## SAMPLE as one transition (rule R115) -/

theorem memRead_runSample (raw : Int) (s : State) (a : Slot) :
    memRead (runSample raw s) a = if a = s.idx then sat127 (readY (runSample raw s)) else memRead s a := by
  split
  · next pushed => rw [pushed, memRead_runSample_pushed]
  · next other => exact memRead_runSample_other raw other

/-- The output code of a clipped sample fits `PEND` (rules R105, R125). -/
theorem zext_outputCode (sum : Int) : zext (field 8 (bias128 (sat127 sum))) = bias128 (sat127 sum) := by
  have lower := sat127_lower sum
  have upper := sat127_upper sum
  rw [zext_field]
  unfold bias128 Config.midScale
  omega

/-- The taps read the buffer that the push has left, so each sees what a read after the SAMPLE sees (rule R109). -/
theorem zext_runSample_pend (raw : Int) (s : State) :
    zext (runSample raw s).pend = bias128 (sat127 (
      memRead (runSample raw s) (indexPlus s.idx (zext s.d)) +
      memRead (runSample raw s) (indexPlus s.idx (-zext s.d + 1)) +
      memRead (runSample raw s) (indexPlus s.idx (zext s.d + 64)) +
      memRead (runSample raw s) (indexPlus s.idx (-zext s.d + 65)))) := by
  rw [← zext_outputCode]
  simp [runSample, Int.add_assoc]

/-- Settles O14: the registers are those of `runSample`, the outputs those of ADC.TRIG, and the rest is the monitor's or
is left alone. -/
theorem sampleIsOneTransition : Obligations.SampleIsOneTransition := by
  intro s raw fits
  have run := exec_sample_next_iff.mpr ⟨fits, rfl⟩
  have regs := sameRegisters_of_exec_sample run
  have own := sameStepFields_of_exec run
  refine ⟨_, run, ?_⟩
  intro u y rd sum
  have filtered : readY (runSample raw s) = y := runSample_y fits
  have slots : ∀ a, memRead (runSample raw s) a = rd a := fun a => by rw [memRead_runSample, filtered]
  refine ⟨regs.xPrev.trans (runSample_xPrev raw s), regs.xCur.trans (runSample_xCur fits), regs.y.trans filtered,
    fun a => (memRead_congr regs.buf a).trans (slots a), ?pend, ?counters, ?idx, monitorSample_ph _, ?faults, ?adcStart,
    ?trace, regs.duty.trans (runSample_duty raw s), own.modAct, own.committed, own.stepNo, own.cfg, own.stim, ?tmp⟩
  case pend => rw [regs.pend, zext_runSample_pend, slots, slots, slots, slots]
  case counters =>
    rw [regs.sub, regs.d, runSample_sub, runSample_d]
    obtain ⟨full, sub, d⟩ | ⟨count, sub, d⟩ := lfoNext_cases s.cfg s.sub s.d
    · rw [if_pos full]
      exact ⟨congrArg BitVec.toNat sub, d⟩
    · rw [if_neg (Nat.not_le.mpr count)]
      exact ⟨sub, d⟩
  case idx => rw [regs.idx, runSample_idx, zext_field_mod128]
  case faults | adcStart | trace | tmp => simp [runSample]

/-! ## Which operation writes which register (rule R123) -/

/-- Settles O45: besides SAMPLE and RESET eight operations write registers, each its own; the others write temporaries or
the port alone. -/
theorem registersHaveTheirWriters : Obligations.RegistersHaveTheirWriters := by
  intro i s t run
  obtain ⟨cfg, modAct, committed, stepNo, stim⟩ := sameStepFields_of_exec run
  refine ⟨fun notSample notReset => ?_, cfg, modAct, committed, stepNo, stim⟩
  cases i with
  | sample raw => exact absurd rfl (notSample raw)
  | reset => exact absurd rfl notReset
  | both => exact nomatch run
  | adcTrig raw =>
    obtain ⟨-, rfl⟩ := exec_adcTrig_next_iff.mp run
    simp
  | fifoPush | fifoAdv | lfoStep | outPend | dcbLeak | dcbShift | commit | outCommit =>
    cases run
    simp
  | _ =>
    cases run
    exact ⟨fun _ => rfl, fun _ => rfl, fun _ => ⟨rfl, rfl⟩, fun _ => rfl, fun _ => rfl, fun _ => ⟨rfl, rfl⟩⟩

/-! ## The port `adc_start` (rules R65, R116) -/

/-- Of the event operations SAMPLE alone drives the port high. -/
theorem adcStart_of_exec_event {i : Instr} {s t : State} (event : i.isEvent = true) (run : exec i s = .next t) :
    t.adcStart = true ↔ ∃ raw, i = .sample raw := by
  cases i with
  | sample raw =>
    obtain ⟨-, rfl⟩ := exec_sample_next_iff.mp run
    simp [runSample]
  | reset => cases run; simp
  | idle => cases run; simp
  | commit => cases run; simp
  | both => exact nomatch run
  | _ => exact nomatch event

/-- Settles O48: a step ends as its operation leaves the port. -/
theorem adcStartOnlyInSample : Obligations.AdcStartOnlyInSample := by
  intro s t inp rest first run
  obtain ⟨empty, -⟩ | ⟨inp', rest', u, cons, exec_u, rfl⟩ := step_next_cases run
  · exact absurd (first.symm.trans empty) (List.cons_ne_nil inp rest)
  · cases first.symm.trans cons
    rw [← adcStart_of_exec_event (isEvent_decode _ _) exec_u]
    simp [finishStep]

end Sys2Proof.Machine
end

section
/-! SUPPORT. The output stage (`44_output_commit.md` rules R125 to R131): its three micro-operations, COMMIT as one update
of the state, the two writers of `DUTY`, and the handoff of `PEND` from the SAMPLE of a period to its COMMIT. -/

namespace Sys2Proof.Machine

/-! ## OUT.BIAS, OUT.PEND, OUT.COMMIT (rules R125 to R127) -/

theorem field_bias128 (c : Int) : field 8 (bias128 c) = field 8 c ^^^ 0x80#8 := by
  rw [xor_topBit_eq_add]
  exact BitVec.ofInt_add c 128

/-- Settles O31: the field is inverted in bit 7 for every `c`, and the clip bounds the code. -/
theorem outBiasAddsMidScale : Obligations.OutBiasAddsMidScale :=
  fun s => ⟨rfl, fun lower upper => ⟨by omega, by omega, field_bias128 s.tmp.c⟩⟩

/-- Settles O32: the stored field is `u` modulo 256. -/
theorem outPendStoresCode : Obligations.OutPendStoresCode := by
  refine fun s => ⟨field 8 s.tmp.u, rfl, rfl, fun lower upper => ?_⟩
  rw [zext_field]
  exact Int.emod_eq_of_lt lower (Int.lt_add_one_of_le upper)

/-- Settles O34: the transfer is the definition of OUT.COMMIT, which leaves the monitor alone. -/
theorem outCommitWritesDuty : Obligations.OutCommitWritesDuty := fun _ => rfl

/-! ## COMMIT (rules R127, R130) -/

/-- The monitor appends one record or none. -/
theorem raiseOrderIf_eq_append (broken : Prop) [Decidable broken] (cause : OrderCause) (s : State) :
    raiseOrderIf broken cause s = { s with faults := s.faults ++ if broken then [⟨s.stepNo, cause⟩] else [] } := by
  unfold raiseOrderIf
  by_cases h : broken <;> simp [h]

/-- Settles O17: COMMIT is OUT.COMMIT, the port low and the monitor's row. -/
theorem commitCopiesPending : Obligations.CommitCopiesPending := by
  intro s
  show Host.Outcome.next (monitorCommit (outCommit (driveAdcStart false s))) = _
  rw [monitorCommit, raiseOrderIf_eq_append]
  rfl

/-- Settles O18: the first COMMIT leaves `DUTY` equal to `PEND` and the monitor in `WAIT_SAMPLE`, where the second is
recorded. -/
theorem commitIsIdempotentOnHardware : Obligations.CommitIsIdempotentOnHardware := by
  intro s t u first second
  rw [commitCopiesPending] at first second
  cases first
  cases second
  rfl

/-! ## The writers of `DUTY` (rule R129) -/

/-- Settles O44: two operations copy `PEND`, RESET restores the reset value, and the others leave `DUTY`. -/
theorem dutyHasTwoWriters : Obligations.DutyHasTwoWriters := by
  intro i s t run
  cases i with
  | sample raw =>
    obtain ⟨-, rfl⟩ := exec_sample_next_iff.mp run
    simp
  | adcTrig raw =>
    obtain ⟨-, rfl⟩ := exec_adcTrig_next_iff.mp run
    simp
  | both => exact nomatch run
  | commit | outCommit | reset =>
    cases run
    simp
  | _ =>
    cases run
    rfl

/-! ## The handoff of a period (rule R131) -/

/-- `t` has the parameters of `s` and holds the same in every register that SAMPLE reads (rule R115). -/
structure SameSampleInputs (s t : State) : Prop where
  cfg : t.cfg = s.cfg
  xCur : readXCur t = readXCur s
  y : readY t = readY s
  entries : ∀ a, memRead t a = memRead s a
  idx : t.idx = s.idx
  d : t.d = s.d
  sub : t.sub = s.sub

/-- SAMPLE reads none of what COMMIT writes. -/
theorem sameSampleInputs_of_exec_commit {s t : State} (run : exec .commit s = .next t) : SameSampleInputs s t :=
  have same := sameRegisters_of_exec_commit run
  ⟨same.cfg, same.xCur, same.y, memRead_congr same.buf, same.idx, same.d, same.sub⟩

theorem SameSampleInputs.after_runSample {raw : Int} {s t : State} (h : SameSampleInputs s t) (fits : s.cfg.FitsRaw raw) :
    SameSampleInputs (runSample raw s) (runSample raw t) := by
  have fits' : t.cfg.FitsRaw raw := by rwa [h.cfg]
  have y : readY (runSample raw t) = readY (runSample raw s) := by
    rw [runSample_y fits, runSample_y fits', h.cfg, h.y, h.xCur]
  refine ⟨by simpa using h.cfg, ?xCur, y, fun a => ?entries, ?idx, ?d, ?sub⟩
  case xCur => rw [runSample_xCur fits, runSample_xCur fits']
  case entries => rw [memRead_runSample, memRead_runSample, h.idx, y, h.entries]
  case idx => rw [runSample_idx, runSample_idx, h.idx]
  case d => rw [runSample_d, runSample_d, h.cfg, h.sub, h.d]
  case sub => rw [runSample_sub, runSample_sub, h.cfg, h.sub, h.d]

theorem SameSampleInputs.pend_after_runSample {raw : Int} {s t : State} (h : SameSampleInputs s t)
    (fits : s.cfg.FitsRaw raw) : (runSample raw t).pend = (runSample raw s).pend := by
  apply zext_injective
  rw [zext_runSample_pend, zext_runSample_pend]
  simp only [(h.after_runSample fits).entries, h.idx, h.d]

/-- The end of a SAMPLE, after its micro-operations, touches nothing that the next SAMPLE reads. -/
theorem SameSampleInputs.after_monitorSample {s t : State} (h : SameSampleInputs s t) :
    SameSampleInputs (monitorSample (dropTemps s)) (monitorSample (dropTemps t)) :=
  ⟨h.cfg, h.xCur, h.y, h.entries, h.idx, h.d, h.sub⟩

/-- From states that agree in what SAMPLE reads, SAMPLE leaves the same value in `PEND`, and states that agree again. -/
theorem SameSampleInputs.after_exec_sample {raw : Int} {s t : State} (h : SameSampleInputs s t)
    (fits : s.cfg.FitsRaw raw) :
    ∃ u v, exec (.sample raw) s = .next u ∧ exec (.sample raw) t = .next v ∧ v.pend = u.pend ∧
      SameSampleInputs u v := by
  have fits' : t.cfg.FitsRaw raw := by rwa [h.cfg]
  refine ⟨_, _, exec_sample_next_iff.mpr ⟨fits, rfl⟩, exec_sample_next_iff.mpr ⟨fits', rfl⟩, ?pend, ?inputs⟩
  case pend => simpa using h.pend_after_runSample fits
  case inputs => exact (h.after_runSample fits).after_monitorSample

theorem pendings_cons_of_exec {raw : Int} {s t : State} (run : exec (.sample raw) s = .next t) (raws : List Int) :
    pendings (raw :: raws) s = t.pend :: pendings raws t := by
  rw [pendings, run]

/-- The values that SAMPLEs leave in `PEND` depend on what SAMPLE reads alone. -/
theorem pendings_congr (raws : List Int) :
    ∀ {s t : State}, SameSampleInputs s t → (∀ r ∈ raws, s.cfg.FitsRaw r) → pendings raws t = pendings raws s := by
  induction raws with
  | nil => exact fun _ _ => rfl
  | cons raw raws ih =>
    intro s t same fits
    obtain ⟨fitsFirst, fitsRest⟩ := List.forall_mem_cons.mp fits
    obtain ⟨u, v, run, run', pend, next⟩ := same.after_exec_sample fitsFirst
    rw [pendings_cons_of_exec run, pendings_cons_of_exec run', pend, ih next]
    rwa [(sameStepFields_of_exec run).cfg]

/-- One period from `WAIT_SAMPLE`: its COMMIT outputs the value its SAMPLE left in `PEND`, and nothing is recorded. -/
theorem exec_period {raw : Int} {s : State} (phase : s.ph = .waitSample) (fits : s.cfg.FitsRaw raw) :
    ∃ u t, exec (.sample raw) s = .next u ∧ exec .commit u = .next t ∧ t.duty = u.pend ∧
      t.trace = s.trace ++ [.adcStart, .dutyWrite u.pend] ∧ t.ph = .waitSample ∧ t.faults = s.faults ∧
      t.cfg = s.cfg := by
  refine ⟨_, _, exec_sample_next_iff.mpr ⟨fits, rfl⟩, rfl, ?_⟩
  simp [phase, runSample]

/-- Periods one after another, with `DUTY` the last value output or, without a period, the one it had. -/
theorem runOps_periods (raws : List Int) :
    ∀ {s : State}, s.ph = .waitSample → (∀ r ∈ raws, s.cfg.FitsRaw r) →
      ∃ t, runOps (raws.flatMap (fun r => [.sample r, .commit])) s = .next t ∧
        t.faults = s.faults ∧ (pendings raws s).length = raws.length ∧
        t.trace = s.trace ++ (pendings raws s).flatMap (fun v => [.adcStart, .dutyWrite v]) ∧
        t.duty = (pendings raws s).getLast?.getD s.duty := by
  induction raws with
  | nil => exact fun {s} _ _ => ⟨s, rfl, rfl, rfl, (List.append_nil s.trace).symm, rfl⟩
  | cons raw raws ih =>
    intro s phase fits
    obtain ⟨fitsFirst, fitsRest⟩ := List.forall_mem_cons.mp fits
    obtain ⟨u, v, sample, commit, duty, trace, phase', faults, cfg⟩ := exec_period phase fitsFirst
    obtain ⟨t, run, faults', length, trace', duty'⟩ := ih phase' (by rwa [cfg])
    have period : runOps (.sample raw :: .commit :: raws.flatMap (fun r => [.sample r, .commit])) s = .next t :=
      runOps_cons_next_iff.mpr ⟨u, sample, runOps_cons_next_iff.mpr ⟨v, commit, run⟩⟩
    have values : pendings (raw :: raws) s = u.pend :: pendings raws v := by
      rw [pendings_cons_of_exec sample, pendings_congr raws (sameSampleInputs_of_exec_commit commit)]
      rwa [(sameStepFields_of_exec sample).cfg]
    refine ⟨t, period, faults'.trans faults, ?_⟩
    rw [values, trace', trace, duty', duty, List.getLast?_cons]
    exact ⟨congrArg (· + 1) length, by simp, rfl⟩

/-- Settles O56: a run of periods, where a last value output is what `DUTY` holds. -/
theorem samePeriodHandoff : Obligations.SamePeriodHandoff := by
  intro s raws phase fits
  obtain ⟨t, run, faults, length, trace, duty⟩ := runOps_periods raws phase fits
  exact ⟨t, run, faults, length, trace, fun v last => by rw [duty, last, Option.getD_some]⟩

end Sys2Proof.Machine
end

section
/-! SUPPORT. Faults and the contract monitor (`60_exceptions.md` rules R140 to R152): what an operation may add to the
records, when an operation is refused or stops the run, and when the modulator's latch moves. -/

namespace Sys2Proof.Machine

/-! ## What one operation adds to the records (rules R140, R141, R143) -/

/-- `t` has the records of `s`, with at most one fault record more, that of the step running in `s`, and perhaps more
outputs. -/
structure RecordsGrow (s t : State) : Prop where
  faults : t.faults = s.faults ∨ ∃ cause, t.faults = s.faults ++ [⟨s.stepNo, cause⟩]
  trace : s.trace <+: t.trace

theorem RecordsGrow.faults_prefix {s t : State} (h : RecordsGrow s t) : s.faults <+: t.faults := by
  obtain same | ⟨cause, appended⟩ := h.faults
  · rw [same]
  · rw [appended]
    exact List.prefix_append _ _

@[simp] theorem runSample_stepNo (raw : Int) (s : State) : (runSample raw s).stepNo = s.stepNo := by simp [runSample]
@[simp] theorem runSample_trace (raw : Int) (s : State) : (runSample raw s).trace = s.trace ++ [.adcStart] := by
  simp [runSample]

/-- Settles O46: the monitor's update is the last of SAMPLE and of COMMIT, and nothing before it touches the monitor. -/
theorem monitorFollowsItsTable : Obligations.MonitorFollowsItsTable := by
  intro i s t event run
  cases i with
  | sample raw =>
    obtain ⟨-, rfl⟩ := exec_sample_next_iff.mp run
    simp
  | commit =>
    rw [commitCopiesPending] at run
    cases run
    simp
  | idle | reset =>
    cases run
    simp
  | both => exact nomatch run
  | _ => exact nomatch event

/-- A row of rule R143's table records its cause or nothing. -/
theorem recordsGrow_of_row {broken : Prop} [Decidable broken] {cause : OrderCause} {s t : State}
    (faults : t.faults = s.faults ++ if broken then [⟨s.stepNo, cause⟩] else []) (trace : s.trace <+: t.trace) :
    RecordsGrow s t := by
  refine ⟨?_, trace⟩
  split at faults
  · exact .inr ⟨cause, faults⟩
  · exact .inl (faults.trans (List.append_nil _))

theorem recordsGrow_of_exec {i : Instr} {s t : State} (run : exec i s = .next t) : RecordsGrow s t := by
  cases i with
  | sample raw =>
    obtain ⟨sample, -⟩ := monitorFollowsItsTable _ s t rfl run
    obtain ⟨-, faults⟩ := sample raw rfl
    obtain ⟨-, rfl⟩ := exec_sample_next_iff.mp run
    exact recordsGrow_of_row faults (by simp)
  | commit =>
    rw [commitCopiesPending] at run
    cases run
    exact recordsGrow_of_row rfl (List.prefix_append _ _)
  | adcTrig raw =>
    obtain ⟨-, rfl⟩ := exec_adcTrig_next_iff.mp run
    exact ⟨.inl rfl, List.prefix_append _ _⟩
  | outCommit =>
    cases run
    exact ⟨.inl rfl, List.prefix_append _ _⟩
  | both => exact nomatch run
  | _ =>
    cases run
    exact ⟨.inl rfl, List.prefix_rfl⟩

@[simp] theorem finishStep_stepNo (i : Instr) (b : Bool) (s : State) : (finishStep i b s).stepNo = s.stepNo + 1 := rfl
@[simp] theorem finishStep_trace (i : Instr) (b : Bool) (s : State) : (finishStep i b s).trace = s.trace := rfl

/-- Settles O47: an operation only appends, and what a step does besides its operation leaves the records. -/
theorem recordsNeverShrink : Obligations.RecordsNeverShrink := by
  refine ⟨fun i s t run => ?operation, fun s t run => ?step⟩
  case operation =>
    have grow := recordsGrow_of_exec run
    exact ⟨grow.faults_prefix, grow.trace⟩
  case step =>
    obtain ⟨-, rfl⟩ | ⟨inp, rest, u, -, exec_u, rfl⟩ := step_next_cases run
    · exact ⟨List.prefix_rfl, List.prefix_rfl, rfl⟩
    · have grow := recordsGrow_of_exec exec_u
      exact ⟨grow.faults_prefix, grow.trace, (sameStepFields_of_exec exec_u).cfg⟩

/-! ## The order of the records (rules R33, R141) -/

/-- SAMPLE drops the temporaries it forms, and the other event operations form none (rule R33). -/
theorem tmp_clear_of_exec_event {i : Instr} {s t : State} (event : i.isEvent = true) (clear : s.tmp = Temps.clear)
    (run : exec i s = .next t) : t.tmp = Temps.clear := by
  cases i with
  | sample raw =>
    obtain ⟨-, rfl⟩ := exec_sample_next_iff.mp run
    simp
  | reset | idle | commit =>
    cases run
    simpa using clear
  | both => exact nomatch run
  | _ => exact nomatch event

/-- A record of the running step comes after those of the steps before it. -/
theorem rising_append_record {faults : List FaultRecord} {n : Nat} (cause : OrderCause)
    (rising : faults.Pairwise (fun p q : FaultRecord => p.step < q.step)) (past : ∀ f ∈ faults, f.step < n) :
    (faults ++ [FaultRecord.mk n cause]).Pairwise (fun p q : FaultRecord => p.step < q.step) ∧
      ∀ f ∈ faults ++ [FaultRecord.mk n cause], f.step < n + 1 := by
  constructor
  · exact List.pairwise_append.mpr ⟨rising, List.pairwise_singleton _ _, by simpa using past⟩
  · intro f mem
    obtain old | rfl := List.mem_append.mp mem |>.imp_right List.mem_singleton.mp
    · exact Nat.lt_succ_of_lt (past f old)
    · exact Nat.lt_succ_self n

theorem State.MonitorOrder.records_after_exec {s u : State} (h : s.MonitorOrder) (grow : RecordsGrow s u) :
    u.faults.Pairwise (fun p q : FaultRecord => p.step < q.step) ∧ ∀ f ∈ u.faults, f.step < s.stepNo + 1 := by
  obtain same | ⟨cause, appended⟩ := grow.faults
  · rw [same]
    exact ⟨h.rising, fun f mem => Nat.lt_succ_of_lt (h.past f mem)⟩
  · rw [appended]
    exact rising_append_record cause h.rising h.past

/-- Settles O54: the operation adds at most a record with this step's number, above those there, and then the step is
counted. -/
theorem stepKeepsMonitorOrder : Obligations.StepKeepsMonitorOrder := by
  intro s t order run
  obtain ⟨-, rfl⟩ | ⟨inp, rest, u, -, exec_u, rfl⟩ := step_next_cases run
  · exact order
  have fetched : State.MonitorOrder { s with stim := rest } := ⟨order.rising, order.past, order.noTemps⟩
  obtain ⟨rising, past⟩ := fetched.records_after_exec (recordsGrow_of_exec exec_u)
  have clear : u.tmp = Temps.clear := tmp_clear_of_exec_event (isEvent_decode _ _) fetched.noTemps exec_u
  have stepNo : u.stepNo = s.stepNo := (sameStepFields_of_exec exec_u).stepNo
  refine ⟨rising, ?_, clear⟩
  rw [finishStep_stepNo, stepNo]
  exact past

/-! ## The modulator's latch (rule R152) -/

theorem step_next_of_cons {s t : State} {inp : Input} {rest : List Input} (first : s.stim = inp :: rest)
    (run : step s = .next t) :
    ∃ u, exec (decode s.cfg (sampledWord s inp)) { s with stim := rest } = .next u ∧
      t = finishStep (decode s.cfg (sampledWord s inp)) inp.boundary u := by
  obtain ⟨empty, -⟩ | ⟨inp', rest', u, cons, exec_u, finished⟩ := step_next_cases run
  · exact absurd (first.symm.trans empty) (List.cons_ne_nil inp rest)
  · cases first.symm.trans cons
    exact ⟨u, exec_u, finished⟩

@[simp] theorem finishStep_modAct (i : Instr) (b : Bool) (s : State) :
    (finishStep i b s).modAct = nextModAct i b s := rfl
@[simp] theorem finishStep_committed (i : Instr) (b : Bool) (s : State) :
    (finishStep i b s).committed = nextCommitted i s := rfl

/-- SAMPLE and IDLE leave `DUTY`, so that a boundary in their step does not coincide with a write of it (rule R129). -/
theorem nextModAct_of_exec {i : Instr} {s t : State} (quiet : (∃ raw, i = .sample raw) ∨ i = .idle)
    (run : exec i s = .next t) (note : s.committed = true) : nextModAct i true t = s.duty := by
  have duty := dutyHasTwoWriters i s t run
  have note' : t.committed = true := (sameStepFields_of_exec run).committed.trans note
  rw [nextModAct_eq_ite]
  obtain ⟨raw, rfl⟩ | rfl := quiet <;> simpa [writesDuty, note'] using duty

theorem nextCommitted_event_iff {i : Instr} (event : i.isEvent = true) (s : State) :
    nextCommitted i s = true ↔ i = .commit ∨ s.committed = true ∧ i ≠ .reset := by
  rw [nextCommitted_event event]
  split
  · next reset => simp [reset]
  · next other =>
    split
    · next commit => simp [commit]
    · next quiet => simp [other, quiet]

/-- Settles O11: the operation leaves the latch and the note, and the step moves them after it. -/
theorem latchOnlyAtBoundary : Obligations.LatchOnlyAtBoundary := by
  intro s t inp rest first run
  obtain ⟨u, exec_u, rfl⟩ := step_next_of_cons first run
  have own := sameStepFields_of_exec exec_u
  refine ⟨fun noBoundary => ?without, fun boundary note => ⟨fun raw op => ?sample, fun op => ?idle⟩, ?note⟩
  case without =>
    rw [noBoundary, finishStep_modAct, nextModAct_eq_ite]
    exact own.modAct
  case sample => rw [boundary, finishStep_modAct, nextModAct_of_exec (.inl ⟨raw, op⟩) exec_u note]
  case idle => rw [boundary, finishStep_modAct, nextModAct_of_exec (.inr op) exec_u note]
  case note =>
    rw [finishStep_committed, nextCommitted_event_iff (isEvent_decode _ _), own.committed]

/-! ## What is refused (rules R8, R144) -/

theorem exec_sample_refused {raw : Int} {s : State} (out : ¬ s.cfg.FitsRaw raw) :
    exec (.sample raw) s = .refused .operandRange := if_neg out

theorem exec_adcTrig_refused {raw : Int} {s : State} (out : ¬ s.cfg.FitsRaw raw) :
    exec (.adcTrig raw) s = .refused .operandRange := if_neg out

theorem exec_not_refused {i : Instr} {s : State} (wf : i.wf s.cfg = true) (r : Refusal) : exec i s ≠ .refused r := by
  cases i with
  | sample raw =>
    rw [exec_sample_next_iff.mpr ⟨of_decide_eq_true wf, rfl⟩]
    exact nofun
  | adcTrig raw =>
    rw [exec_adcTrig_next_iff.mpr ⟨of_decide_eq_true wf, rfl⟩]
    exact nofun
  | _ => exact nofun

/-- An event word spells a well-formed operation, so its step is not refused. -/
theorem step_not_refused (s : State) (r : Refusal) : step s ≠ .refused r := by
  obtain ⟨-, none⟩ | ⟨inp, rest, -, fetched⟩ := fetch_cases s
  · simp [step, none]
  · have notRefused := exec_not_refused (s := { s with stim := rest }) (wf_decode s.cfg (sampledWord s inp))
    simp only [step, fetched]
    split
    · exact nofun
    · exact nofun
    · next refused => exact absurd refused (notRefused _)

/-- Settles O16: an operand is in range exactly when the operation is well formed, and a decoded one always is. -/
theorem onlyOutOfRangeIsRefused : Obligations.OnlyOutOfRangeIsRefused :=
  ⟨fun _ _ out => ⟨exec_sample_refused out, exec_adcTrig_refused out⟩, fun _ _ r wf => exec_not_refused wf r,
    step_not_refused, fun _ _ _ _ illegal => dif_neg illegal, fun cfg => dif_pos cfg.legal⟩

/-! ## Where the run ends or stops (rules R142, R157) -/

/-- Settles O10: with no event word left, the fetch takes nothing. -/
theorem stepAtEndOfStimulus : Obligations.StepAtEndOfStimulus := by
  intro s ended
  obtain ⟨-, none⟩ | ⟨inp, rest, first, -⟩ := fetch_cases s
  · simp only [step, none]
  · exact absurd (ended.symm.trans first) (List.cons_ne_nil inp rest).symm

/-- Settles O19: the word of the reserved pattern decodes to it, and the fault of an operation is its step's. -/
theorem bothEventsStopTheRun : Obligations.BothEventsStopTheRun := by
  refine ⟨fun _ => rfl, fun s inp rest first rst c sm => step_of_exec_fault first ?_⟩
  rw [decode_of_both rst c sm]
  rfl

end Sys2Proof.Machine
end

section
/-! SUPPORT. RESET from any state (`70_reset_and_hazards.md` rules R160, R161): which state it answers, and that it has
nothing left to do in that state. -/

namespace Sys2Proof.Machine

/-- The reset state of the instance of `s`, but for what RESET does not touch: `FAULT` (rule R160) and the fields that
the model's log names (log 2, 4, 5, 7, 10). -/
def resetKeeping (s : State) : State :=
  { State.resetOf s.cfg with
    modAct := s.modAct, committed := s.committed, faults := s.faults, trace := s.trace, stepNo := s.stepNo,
    stim := s.stim, tmp := s.tmp }

theorem exec_reset_eq (s : State) : exec .reset s = .next (resetKeeping s) := rfl

/-- What RESET keeps of `s` is all that it reads of it, so a second one finds the same. -/
theorem resetKeeping_idem (s : State) : resetKeeping (resetKeeping s) = resetKeeping s := rfl

theorem exec_reset_again {s t : State} (h : exec .reset s = .next t) : exec .reset t = .next t := by
  cases (exec_reset_eq s).symm.trans h
  rw [exec_reset_eq, resetKeeping_idem]

/-- Settles O12: RESET answers `resetKeeping`, whose other fields are those of the reset state. -/
theorem resetFromEveryState : Obligations.ResetFromEveryState := by
  intro s
  refine ⟨exec_reset_eq s, resetOf_memRead s.cfg, ?duty, ?adcStart, ?ph, fun _ rst => decode_of_rst rst,
    fun _ => exec_reset_again⟩
  case duty => rfl
  case adcStart => rfl
  case ph => rfl

end Sys2Proof.Machine
end
